-- ==== Sys2Proof/Word.lean ====
section
/-!
DEFINITION. The words of the block: the widths of its registers (spec/10_state.md R9), the three word formats of
spec/30_encoding.md (R34, R35, R36), and a word of a format as it is written down, before it is decoded.
-/

namespace Sys2Proof

/-- The 32-bit value of the shift register `LFSR` (R9, R10). -/
abbrev LfsrWord := BitVec 32

/-- The 8-bit value of the latch `DUTY`, and the low byte of the LFSR (R9, R12). -/
abbrev Byte := BitVec 8

/-- The event word `EV = {rst, tick}` (R34). -/
abbrev EventWord := BitVec 2

/-- The phase word `p`: a value of the 5-bit Frame Counter (R11, R35). -/
abbrev PhaseWord := BitVec 5

/-- The control word `CW = {adv_en, load_en}` (R36). -/
abbrev ControlWord := BitVec 2

/-- The formats of spec/opcode_table.json. `unencoded` is the table's NONE: an operation nothing decodes (R33, R36). -/
inductive Format where
  | ev
  | ph
  | cw
  | unencoded
  deriving DecidableEq, Repr

/-- Bits in a word of the format (R34, R35, R36; width 0 for NONE). -/
def Format.width : Format → Nat
  | .ev => 2
  | .ph => 5
  | .cw => 2
  | .unencoded => 0

/-- A number written down as a word of a format. It may be too wide, or of the format that has no words: see `RawWord.wellFormed`. -/
structure RawWord where
  format : Format
  bits : Nat
  deriving DecidableEq, Repr

end Sys2Proof
end

