-- ==== Sys2Proof/Syntax.lean ====
section
/-!
DEFINITION. The operations of the block: one constructor for each row of spec/opcode_table.json (R33).

No operation has an operand the meaning uses (R37). Where a row's pattern leaves bits open (`1x` of RESET, `xx001` to `xx110` of the
PH_IDLE_LOW rows), the constructor carries those bits, so that each word is one term and encoding it gives the word back
(notes/assumptions/21.md).
-/

namespace Sys2Proof

inductive Instr where
  /-- EV `1x`: power-up or reset (R42). `tick` is bit 0, a tick presented with the reset; it is discarded (R34). -/
  | reset (tick : BitVec 1)
  /-- EV `01`: one serviced Frame Clock overflow (R41). -/
  | tick
  /-- EV `00`: no event (R43). -/
  | hold
  /-- PH `00000`: the mandatory advance (R46). -/
  | phStart
  /-- PH `01000`: first checkpoint (R47). -/
  | phCheck08
  /-- PH `10000`: second checkpoint (R47). -/
  | phCheck10
  /-- PH `11000`: third checkpoint (R47). -/
  | phCheck18
  /-- PH `11111`: the load of the latch (R48). -/
  | phEnd
  /-- PH `xx001` (R49); `hi` is `p[4:3]`, here and in the five rows that follow. -/
  | phIdleLow1 (hi : BitVec 2)
  | phIdleLow2 (hi : BitVec 2)
  | phIdleLow3 (hi : BitVec 2)
  | phIdleLow4 (hi : BitVec 2)
  | phIdleLow5 (hi : BitVec 2)
  | phIdleLow6 (hi : BitVec 2)
  /-- PH `00111` (R49). -/
  | phIdle07
  /-- PH `01111` (R49). -/
  | phIdle0F
  /-- PH `10111` (R49). -/
  | phIdle17
  /-- CW `00`: neither LFSR nor DUTY is written (R36). -/
  | nop
  /-- CW `10`: one step of the generator (R50). -/
  | lstep
  /-- CW `01`: the latch is loaded (R61). -/
  | dload
  /-- CW `11`: a step, then a load from the new LFSR (R36); no phase word generates it. -/
  | lstepDload
  /-- No encoding: the increment every TICK performs first (R44). -/
  | fcinc
  /-- No encoding: the comparator's read of the latch (R62). -/
  | dread
  deriving DecidableEq, Repr

end Sys2Proof
end

