-- ==== Sys2Proof/WellFormed.lean ====
section
/-!
DEFINITION. Which written words are words of the block, and which operations have one.

A term of `Instr` has no ill-formed case: each of its operands is a bit field of the exact width its row leaves open, and R38 has no
reserved or illegal code point. What can be ill formed is a number written down as a word.
-/

namespace Sys2Proof

/-- The operation is decoded from a word; FCINC and DREAD are not (R33: "selected by nothing"). -/
def Instr.hasEncoding : Instr → Bool
  | .fcinc => false
  | .dread => false
  | .reset _ => true
  | .tick => true
  | .hold => true
  | .phStart => true
  | .phCheck08 => true
  | .phCheck10 => true
  | .phCheck18 => true
  | .phEnd => true
  | .phIdleLow1 _ => true
  | .phIdleLow2 _ => true
  | .phIdleLow3 _ => true
  | .phIdleLow4 _ => true
  | .phIdleLow5 _ => true
  | .phIdleLow6 _ => true
  | .phIdle07 => true
  | .phIdle0F => true
  | .phIdle17 => true
  | .nop => true
  | .lstep => true
  | .dload => true
  | .lstepDload => true

/-- A word is well formed when its format has words at all, and the number fits the format's width (R38: every such word is defined). -/
def RawWord.wellFormed (w : RawWord) : Bool :=
  w.format != .unencoded && decide (w.bits < 2 ^ w.format.width)

end Sys2Proof
end

