-- ==== Sys2Proof/Decode.lean ====
section
/-!
DEFINITION. Decoding and encoding: the tables of spec/30_encoding.md R34 (EV), R35 (PH) and R36 (CW), and the rows of
spec/opcode_table.json as data.
-/

namespace Sys2Proof

/-- Why a written word is no word of the block. R38: no word of a format's width is ever rejected. -/
inductive DecodeError where
  /-- A bit above the format's width is set: a `w`-bit word has no such bit. -/
  | tooWide (format : Format) (bits : Nat)
  /-- The format NONE has no words: FCINC and DREAD are not decoded from anything (R33). -/
  | noEncoding
  deriving DecidableEq, Repr

/-- The event word: `EV[1] = rst` wins over `EV[0] = tick` (R34). -/
def decodeEv (w : EventWord) : Instr :=
  if w.getLsbD 1 then .reset (w.extractLsb' 0 1)
  else if w.getLsbD 0 then .tick
  else .hold

/-- The phase words whose low three bits are zero: the start of the period and the three checkpoints (R35). -/
def decodePhLow0 (hi : BitVec 2) : Instr :=
  if hi = 0#2 then .phStart
  else if hi = 1#2 then .phCheck08
  else if hi = 2#2 then .phCheck10
  else .phCheck18

/-- The phase words whose low three bits are seven: the end of the period and three idle words (R35). -/
def decodePhLow7 (hi : BitVec 2) : Instr :=
  if hi = 0#2 then .phIdle07
  else if hi = 1#2 then .phIdle0F
  else if hi = 2#2 then .phIdle17
  else .phEnd

/-- The phase word `p`, the value of FC after the increment (R35). -/
def decodePh (p : PhaseWord) : Instr :=
  let hi := p.extractLsb' 3 2
  let low := p.extractLsb' 0 3
  if low = 0#3 then decodePhLow0 hi
  else if low = 1#3 then .phIdleLow1 hi
  else if low = 2#3 then .phIdleLow2 hi
  else if low = 3#3 then .phIdleLow3 hi
  else if low = 4#3 then .phIdleLow4 hi
  else if low = 5#3 then .phIdleLow5 hi
  else if low = 6#3 then .phIdleLow6 hi
  else decodePhLow7 hi

/-- The control word: `CW[1] = adv_en`, `CW[0] = load_en` (R36). -/
def decodeCw (w : ControlWord) : Instr :=
  if w.getLsbD 1 then (if w.getLsbD 0 then .lstepDload else .lstep)
  else (if w.getLsbD 0 then .dload else .nop)

/-- Decoding any number written down as a word of any format: total, and a rejection says which check failed. -/
def decode (w : RawWord) : Except DecodeError Instr :=
  match w.format with
  | .unencoded => .error .noEncoding
  | .ev => if w.bits < 2 ^ 2 then .ok (decodeEv (BitVec.ofNat 2 w.bits)) else .error (.tooWide .ev w.bits)
  | .ph => if w.bits < 2 ^ 5 then .ok (decodePh (BitVec.ofNat 5 w.bits)) else .error (.tooWide .ph w.bits)
  | .cw => if w.bits < 2 ^ 2 then .ok (decodeCw (BitVec.ofNat 2 w.bits)) else .error (.tooWide .cw w.bits)

/-- The event word of RESET, its low bit the tick presented with it (R34: canonical `0b10`). -/
def evWord (rst tick : BitVec 1) : RawWord := ⟨.ev, (rst ++ tick).toNat⟩

/-- The phase word with the given `p[4:3]` and `p[2:0]` (R35). -/
def phWord (hi : BitVec 2) (low : BitVec 3) : RawWord := ⟨.ph, (hi ++ low).toNat⟩

/-- The control word with the given enables (R36). -/
def cwWord (adv load : BitVec 1) : RawWord := ⟨.cw, (adv ++ load).toNat⟩

/-- The word of an operation, from the same tables. FCINC and DREAD have none: the format NONE, of width 0 (R36). -/
def encode : Instr → RawWord
  | .reset t => evWord 1#1 t
  | .tick => evWord 0#1 1#1
  | .hold => evWord 0#1 0#1
  | .phStart => phWord 0#2 0#3
  | .phCheck08 => phWord 1#2 0#3
  | .phCheck10 => phWord 2#2 0#3
  | .phCheck18 => phWord 3#2 0#3
  | .phEnd => phWord 3#2 7#3
  | .phIdleLow1 hi => phWord hi 1#3
  | .phIdleLow2 hi => phWord hi 2#3
  | .phIdleLow3 hi => phWord hi 3#3
  | .phIdleLow4 hi => phWord hi 4#3
  | .phIdleLow5 hi => phWord hi 5#3
  | .phIdleLow6 hi => phWord hi 6#3
  | .phIdle07 => phWord 0#2 7#3
  | .phIdle0F => phWord 1#2 7#3
  | .phIdle17 => phWord 2#2 7#3
  | .nop => cwWord 0#1 0#1
  | .lstep => cwWord 1#1 0#1
  | .dload => cwWord 0#1 1#1
  | .lstepDload => cwWord 1#1 1#1
  | .fcinc => ⟨.unencoded, 0⟩
  | .dread => ⟨.unencoded, 0⟩

/-- A row of spec/opcode_table.json that has a word: a word `w` of the format is the row's when `w &&& mask = pattern`. -/
structure TableRow where
  mnemonic : String
  format : Format
  pattern : Nat
  mask : Nat
  deriving DecidableEq, Repr

/-- The word is one of the row's. -/
def TableRow.accepts (r : TableRow) (w : RawWord) : Bool :=
  r.format == w.format && w.bits &&& r.mask == r.pattern

/-- The rows of format EV, letter for letter. -/
def evRows : List TableRow :=
  [⟨"RESET", .ev, 0x2, 0x2⟩, ⟨"TICK", .ev, 0x1, 0x3⟩, ⟨"HOLD", .ev, 0x0, 0x3⟩]

/-- The rows of format PH, letter for letter. -/
def phRows : List TableRow :=
  [⟨"PH_START", .ph, 0x00, 0x1F⟩, ⟨"PH_CHECK_08", .ph, 0x08, 0x1F⟩, ⟨"PH_CHECK_10", .ph, 0x10, 0x1F⟩,
   ⟨"PH_CHECK_18", .ph, 0x18, 0x1F⟩, ⟨"PH_END", .ph, 0x1F, 0x1F⟩]
  ++ [⟨"PH_IDLE_LOW1", .ph, 0x01, 0x07⟩, ⟨"PH_IDLE_LOW2", .ph, 0x02, 0x07⟩, ⟨"PH_IDLE_LOW3", .ph, 0x03, 0x07⟩,
      ⟨"PH_IDLE_LOW4", .ph, 0x04, 0x07⟩, ⟨"PH_IDLE_LOW5", .ph, 0x05, 0x07⟩, ⟨"PH_IDLE_LOW6", .ph, 0x06, 0x07⟩]
  ++ [⟨"PH_IDLE_07", .ph, 0x07, 0x1F⟩, ⟨"PH_IDLE_0F", .ph, 0x0F, 0x1F⟩, ⟨"PH_IDLE_17", .ph, 0x17, 0x1F⟩]

/-- The rows of format CW, letter for letter. -/
def cwRows : List TableRow :=
  [⟨"NOP", .cw, 0x0, 0x3⟩, ⟨"LSTEP", .cw, 0x2, 0x3⟩, ⟨"DLOAD", .cw, 0x1, 0x3⟩, ⟨"LSTEP_DLOAD", .cw, 0x3, 0x3⟩]

/-- Every row of the table that has a word. -/
def opcodeRows : List TableRow := evRows ++ phRows ++ cwRows

/-- The mnemonic of the operation's row in spec/opcode_table.json. -/
def Instr.mnemonic : Instr → String
  | .reset _ => "RESET"
  | .tick => "TICK"
  | .hold => "HOLD"
  | .phStart => "PH_START"
  | .phCheck08 => "PH_CHECK_08"
  | .phCheck10 => "PH_CHECK_10"
  | .phCheck18 => "PH_CHECK_18"
  | .phEnd => "PH_END"
  | .phIdleLow1 _ => "PH_IDLE_LOW1"
  | .phIdleLow2 _ => "PH_IDLE_LOW2"
  | .phIdleLow3 _ => "PH_IDLE_LOW3"
  | .phIdleLow4 _ => "PH_IDLE_LOW4"
  | .phIdleLow5 _ => "PH_IDLE_LOW5"
  | .phIdleLow6 _ => "PH_IDLE_LOW6"
  | .phIdle07 => "PH_IDLE_07"
  | .phIdle0F => "PH_IDLE_0F"
  | .phIdle17 => "PH_IDLE_17"
  | .nop => "NOP"
  | .lstep => "LSTEP"
  | .dload => "DLOAD"
  | .lstepDload => "LSTEP_DLOAD"
  | .fcinc => "FCINC"
  | .dread => "DREAD"

/-- The format a table word of `nbits` bits is read in. The three formats share code points, and a number alone does not say which
one it is of: five bits is a phase word; two bits is an event word, the one word the hardware is given from outside; and in a
whole byte, a number below 4 is an event word and a larger one a phase word (notes/assumptions/12.md). -/
def tableFormat (nbits w : Nat) : Format :=
  if nbits = 0 then .unencoded
  else if nbits ≤ 2 then .ev
  else if nbits ≤ 5 then .ph
  else if w < 4 then .ev
  else .ph

/-- What the decoder reads from a table word. -/
def decodeTableWord (nbits w : Nat) : Option Instr :=
  (decode ⟨tableFormat nbits w, w⟩).toOption

end Sys2Proof
end

