-- ==== Sys2Proof/Config.lean ====
section
/-!
DEFINITION. What is fixed for a machine: the constants of spec/00_scope.md R5, and the parameters the spec leaves open
(`POLY`, `BADMASK`; spec/92_eei_decisions.md D1, D2, D9), which have no value here.
-/

namespace Sys2Proof.Config

/-- The two literals the source gives for the goodness test's mask (R51, D2); it prefers neither. -/
inductive GoodnessMask where
  | mask18
  | mask0C
  deriving DecidableEq, Repr, Inhabited

/-- The mask's 8 bits: `0x18` (bits 4 and 3) or `0x0C` (bits 3 and 2) (R51, conflict C4). -/
def GoodnessMask.bits : GoodnessMask → Byte
  | .mask18 => 0x18#8
  | .mask0C => 0x0C#8

/-- The parameters of the step (R5, R9). The source says of POLY only that it is not zero (R57 (a)), and so does this type. The
default values are there to show that the type is inhabited; no definition of the model uses them. -/
structure Params where
  poly : LfsrWord := 1#32
  poly_ne_zero : poly ≠ 0#32 := by decide
  mask : GoodnessMask := .mask18
  deriving DecidableEq, Repr, Inhabited

/-- `BADMASK` (R51). -/
def Params.badMask (P : Params) : Byte := P.mask.bits

/-- The parameters of the machine the statements speak of: any non-zero `POLY` and either mask (notes/assumptions/2.md, 3.md). -/
opaque params : Params

/-- The number of ticks in a flicker period (R5). -/
def period : Nat := 32

/-- The Frame Counter bits that are zero at a checkpoint (R5 `CHECK_MASK`). -/
def checkMask : PhaseWord := 0b00111#5

/-- The phase word at which the latch is loaded (R5 `REFRESH_PHASE`, conflict C1). -/
def refreshPhase : PhaseWord := 31#5

/-- The value forced into the low four bits of an unsaturated duty value (R5 `FILL`). -/
def fill : Byte := 0x0F#8

/-- The bit of the low byte that forces saturation (R5 `SAT_MASK`, conflict C3). -/
def satMask : Byte := 0x10#8

/-- The saturated duty value (R5 `DUTY_MAX`). -/
def dutyMax : Byte := 0xFF#8

/-- What R63 and D9 ask of the comparator's open function `OnCount` (counts out of 256 in a PWM cycle): nothing at `0x00`, all at
`0xFF`, and never fewer for a larger value. No rule of the block uses it. -/
structure OnCountAdmissible (onCount : Byte → Nat) : Prop where
  off : onCount 0x00#8 = 0
  full : onCount 0xFF#8 = 256
  monotone : ∀ a b : Byte, a ≤ b → onCount a ≤ onCount b

end Sys2Proof.Config
end

