-- ==== Sys2Proof/Machine/Operands.lean ====
section
/-!
DEFINITION. The fields the rules extract (spec/30_encoding.md R37) and the two data functions over them: the step of the generator,
`LStep` (spec/41_lfsr.md R50), and the duty mapping, `DMap` (spec/42_duty_latch.md R59).
-/

namespace Sys2Proof.Machine

/-- `p`, the phase word of the next TICK: the counter plus one, masked to 5 bits (R37, R44). -/
def phaseWord (fc : PhaseWord) : PhaseWord := fc + 1#5

/-- `LFSR[0]`, the bit that steers the step (R37). -/
def lsb (s : LfsrWord) : Bool := s.getLsbD 0

/-- `LFSR >> 1`, a logical shift: bit 31 becomes 0 (R37, R50). -/
def shifted (s : LfsrWord) : LfsrWord := s >>> 1

/-- `LFSR[7:0]` (R37). -/
def lowByte (s : LfsrWord) : Byte := s.extractLsb' 0 8

/-- `b & BADMASK` (R37). -/
def testedBits (mask b : Byte) : Byte := b &&& mask

/-- `b[7:4]`, the 4-bit magnitude (R37). -/
def nibble (b : Byte) : BitVec 4 := b.extractLsb' 4 4

/-- `b[4]`, that is `b & 0x10` (R37, conflict C3). -/
def saturates (b : Byte) : Bool := b &&& Config.satMask != 0#8

/-- `LStep`: the shift, and the constant `POLY` where the bit shifted out is 0 (R50). -/
def lStep (poly s : LfsrWord) : LfsrWord :=
  if lsb s then shifted s else shifted s ^^^ poly

/-- `DMap`: all ones if bit 4 is set, else the nibble in the high four bits and ones in the low four (R59, conflict C2). -/
def dMap (b : Byte) : Byte :=
  if saturates b then Config.dutyMax
  else ((nibble b).setWidth 8 <<< 4) ||| Config.fill

end Sys2Proof.Machine
end

