-- ==== Sys2Proof/Machine/Flags.lean ====
section
/-!
DEFINITION. The conditions that steer a TICK. The block stores no flag (spec/10_state.md R15): each condition is computed from the
registers when it is used (spec/40_frame_sequencer.md R45; spec/41_lfsr.md R51, R52; spec/30_encoding.md R36).
-/

namespace Sys2Proof.Machine

/-- The start test, `p == 0` (R37). -/
def atStart (p : PhaseWord) : Bool := p == 0#5

/-- The checkpoint test, `p[2:0] == 0`; it holds at 0 too (R37). -/
def atCheckpoint (p : PhaseWord) : Bool := p &&& Config.checkMask == 0#5

/-- `LoadEn`, the end test: `p == 31` (R45, conflict C1). -/
def loadEn (p : PhaseWord) : Bool := p == Config.refreshPhase

/-- `Bad`: the low byte has none of the mask's bits (R51). -/
def bad (mask : Byte) (s : LfsrWord) : Bool := testedBits mask (lowByte s) == 0#8

/-- `AdvEn`: `(p == 0) or ((p[2:0] == 0) and Bad(s))` (R52, D12). -/
def advEn (mask : Byte) (p : PhaseWord) (s : LfsrWord) : Bool :=
  atStart p || (atCheckpoint p && bad mask s)

/-- The four phase classes (R45). -/
inductive PhaseClass where
  | start
  | check
  | end_
  | idle
  deriving DecidableEq, Repr

/-- `Phase`, the phase decode (R45). -/
def phaseClass (p : PhaseWord) : PhaseClass :=
  if p = 0#5 then .start
  else if atCheckpoint p then .check
  else if p = 31#5 then .end_
  else .idle

/-- The control word the phase decode hands to the datapath: `{adv_en, load_en}` (R36). -/
def controlWord (mask : Byte) (p : PhaseWord) (s : LfsrWord) : ControlWord :=
  BitVec.ofBool (advEn mask p s) ++ BitVec.ofBool (loadEn p)

end Sys2Proof.Machine
end

