-- ==== Sys2Proof/Machine/State.lean ====
section
/-!
DEFINITION. The state of the machine (spec/10_state.md R9, R17), the moves its agents can make (spec/00_scope.md R8), and the state
after reset (R19).
-/

namespace Sys2Proof.Machine

/-- How far the service of a pending tick has come (R70). `BUSY` is 1 in `begun` and `stepped`; the two differ in whether the four
steps of TICK have been done, so that a DREAD can fall on either side of the write of DUTY (R29; notes/assumptions/6.md). -/
inductive Service where
  | idle
  | begun
  | stepped
  deriving DecidableEq, Repr

/-- One move of one agent: what the schedule `State.input` is a list of. -/
inductive Input where
  /-- An event word at the ports `rst` and `tick` (R34). -/
  | ev (w : EventWord)
  /-- The PWM comparator samples DUTY (R62). -/
  | dread
  /-- The Frame Clock overflows; the tick is left to be serviced (R70 OVERFLOW). -/
  | overflow
  /-- The service of a pending tick begins: entry to the handler (R70 SERVICE, R75). -/
  | serviceBegin
  /-- The four steps of the TICK in progress are done (R70 SERVICE, R41). -/
  | serviceSteps
  /-- The service ends: return from the handler (R70 SERVICE, R75). -/
  | serviceEnd
  /-- The test bench presents a phase word by itself (notes/assumptions/5.md). -/
  | ph (w : PhaseWord)
  /-- The test bench presents a control word by itself (notes/assumptions/5.md). -/
  | cw (w : ControlWord)
  /-- The test bench asks for the increment by itself (notes/assumptions/5.md). -/
  | fcinc
  deriving DecidableEq, Repr

/-- What a move comes to: an operation of the table, or one of the moves of the delivery model of R70. -/
inductive Action where
  | run (i : Instr)
  | overflow
  | serviceBegin
  | serviceSteps
  | serviceEnd
  deriving DecidableEq, Repr

/-- The whole state. `lfsr`, `fc` and `duty` are the block's three registers (R9), `pend` and `service` the hidden bits of the finer
delivery model (R17, R70). `dreads` and `input` are the model's own: what the comparator has read, and the moves still to come
(notes/assumptions/1.md, 9.md). -/
structure State where
  lfsr : LfsrWord
  fc : PhaseWord
  duty : Byte
  pend : Bool
  service : Service
  dreads : List Byte
  input : List Input
  deriving DecidableEq, Repr

/-- The block has no fault: "Error conditions: none" (R68). So there is no reason to list, and no step can answer one. -/
inductive Fault where
  deriving DecidableEq, Repr

/-- Why a step could be refused. -/
inductive Refusal where
  /-- An arm of exec without a meaning would answer this. Safe. No arm does: every operation answers a next state (R68). -/
  | notModelled (mnemonic : String)
  deriving DecidableEq, Repr

/-- After power-up or reset: every register is zero (R19, R84), nothing is pending or in progress (R19, D4), the comparator has read
nothing and no move is scheduled. -/
def State.reset : State where
  lfsr := 0#32
  fc := 0#5
  duty := 0#8
  pend := false
  service := .idle
  dreads := []
  input := []

end Sys2Proof.Machine
end

