-- ==== Sys2Proof/Machine/Ops.lean ====
section
/-!
DEFINITION. The named operations on the state: the whole-register writes (spec/20_memory.md R25), the datapath operations, TICK
(spec/40_frame_sequencer.md R41), RESET (R42), and the taking of the one interrupt and the return from it (spec/60_exceptions.md
R70, R75).
-/

namespace Sys2Proof.Machine

/-- A write of LFSR: all 32 bits (R25). -/
def State.setLfsr (s : State) (v : LfsrWord) : State := { s with lfsr := v }

/-- A write of FC: all 5 bits (R25). -/
def State.setFc (s : State) (v : PhaseWord) : State := { s with fc := v }

/-- A write of DUTY: all 8 bits (R25). -/
def State.setDuty (s : State) (v : Byte) : State := { s with duty := v }

/-- A write of the hidden bit PEND (R17). -/
def State.setPend (s : State) (b : Bool) : State := { s with pend := b }

/-- How far the service has come, and with it the hidden bit BUSY (R17). -/
def State.setService (s : State) (v : Service) : State := { s with service := v }

/-- The moves still to come. -/
def State.setInput (s : State) (l : List Input) : State := { s with input := l }

/-- What a DREAD returned, put before what earlier ones returned. -/
def State.recordDread (s : State) (v : Byte) : State := { s with dreads := v :: s.dreads }

/-- `BUSY`: a TICK is in progress (R17). -/
def State.busy (s : State) : Bool := s.service != .idle

/-- Nothing is pending and nothing in progress: the state between two ticks of the atomic model (R70). -/
def State.quiet (s : State) : Bool := !s.pend && !s.busy

/-- The port `duty`, "always equal to `DUTY`" (R33). -/
def State.dutyPort (s : State) : Byte := s.duty

/-- FCINC: `FC <- (FC + 1)[4:0]` (R44). -/
def State.incFc (s : State) : State := s.setFc (phaseWord s.fc)

/-- LSTEP: `LFSR <- LStep(LFSR)` (R50). -/
def State.stepLfsr (P : Config.Params) (s : State) : State := s.setLfsr (lStep P.poly s.lfsr)

/-- DLOAD: `DUTY <- DMap(LFSR[7:0])` (R61). -/
def State.loadDuty (s : State) : State := s.setDuty (dMap (lowByte s.lfsr))

/-- A checkpoint: one LSTEP if the value is bad, and no second test (R47). -/
def State.resample (P : Config.Params) (s : State) : State :=
  if bad P.badMask s.lfsr then s.stepLfsr P else s

/-- DREAD: the comparator is given DUTY, and no register changes (R62). -/
def State.readDuty (s : State) : State := s.recordDread s.dutyPort

/-- Steps 2 and 3 of TICK: the advance condition, from the new FC and the LFSR as it is, and the step if it holds (R41). -/
def State.advance (P : Config.Params) (s : State) : State :=
  if advEn P.badMask s.fc s.lfsr then s.stepLfsr P else s

/-- Step 4 of TICK: the load, if the new FC is 31, from the LFSR as step 3 left it (R41). -/
def State.refresh (s : State) : State := if loadEn s.fc then s.loadDuty else s

/-- TICK: the four steps of R41 in their order. -/
def State.tick (P : Config.Params) (s : State) : State := ((s.incFc).advance P).refresh

/-- RESET: every register, and the hidden bits, to zero (R42, R19, D4). What the comparator has read, and the moves still to
come, are not the block's (notes/assumptions/18.md). -/
def State.zeroAll (s : State) : State :=
  { s with lfsr := 0#32, fc := 0#5, duty := 0#8, pend := false, service := .idle }

/-- OVERFLOW: `PEND <- 1`; one that finds PEND set is lost, because one bit does not count (R70, R74). -/
def State.overflow (s : State) : State := s.setPend true

/-- Taking the one interrupt. Enabled when PEND = 1 and BUSY = 0: `PEND <- 0 ; BUSY <- 1` (R70). Nothing is saved and no mode
changes (R75). Where it is not enabled, nothing happens (R72; notes/assumptions/8.md). -/
def State.beginService (s : State) : State :=
  if s.pend && !s.busy then (s.setPend false).setService .begun else s

/-- The four steps of the TICK in progress, once, as one transition (R70, R41). -/
def State.stepService (P : Config.Params) (s : State) : State :=
  if s.service = .begun then (s.tick P).setService .stepped else s

/-- The return: `BUSY <- 0`, once the four steps are done; nothing is restored (R70, R75). -/
def State.endService (s : State) : State :=
  if s.service = .stepped then s.setService .idle else s

end Sys2Proof.Machine
end

