-- ==== Sys2Proof/Machine/Delivery.lean ====
section
/-!
DEFINITION. Delivery: what the next move of the schedule comes to (spec/30_encoding.md R34; spec/60_exceptions.md R70 to R74), and where
a table word stands as an input.
-/

namespace Sys2Proof.Machine

/-- An operation presented as an event word. A TICK can start only where no tick is pending or in progress (R72); where one is, the
overflow it stands for sets PEND and waits, or is lost (R70, R74; notes/assumptions/7.md). -/
def deliver (i : Instr) (s : State) : Action :=
  if i = .tick ∧ s.quiet = false then .overflow else .run i

/-- What a move comes to in a state. -/
def select (m : Input) (s : State) : Action :=
  match m with
  | .ev w => deliver (decodeEv w) s
  | .dread => .run .dread
  | .overflow => .overflow
  | .serviceBegin => .serviceBegin
  | .serviceSteps => .serviceSteps
  | .serviceEnd => .serviceEnd
  | .ph w => .run (decodePh w)
  | .cw w => .run (decodeCw w)
  | .fcinc => .run .fcinc

/-- The input that holds a written word of a format, as `decode` reads it. -/
def inputOfWord (w : RawWord) : Option Input :=
  match w.format with
  | .ev => if w.bits < 2 ^ 2 then some (.ev (BitVec.ofNat 2 w.bits)) else none
  | .ph => if w.bits < 2 ^ 5 then some (.ph (BitVec.ofNat 5 w.bits)) else none
  | .cw => if w.bits < 2 ^ 2 then some (.cw (BitVec.ofNat 2 w.bits)) else none
  | .unencoded => none

/-- The state with a move put before the others, and nothing pending or in progress, so that the move is carried out at once. -/
def State.withMove (s : State) (m : Input) : State :=
  { s with pend := false, service := .idle, input := m :: s.input }

/-- The state with a table word as its next move; a number that is no word changes nothing. -/
def State.placeWord (s : State) (nbits w : Nat) : State :=
  match inputOfWord ⟨tableFormat nbits w, w⟩ with
  | some m => s.withMove m
  | none => s

end Sys2Proof.Machine
end

