-- ==== Sys2Proof/Machine/Datapath.lean ====
section
/-!
DEFINITION. The meanings of format CW (spec/30_encoding.md R36) and of the two operations without an encoding: FCINC
(spec/40_frame_sequencer.md R44) and DREAD (spec/42_duty_latch.md R62).
-/

namespace Sys2Proof.Machine

/-- NOP: neither LFSR nor DUTY is written (R36). -/
def execNop (s : State) : Host.Outcome State Fault Refusal := .next s

/-- LSTEP (R50). -/
def execLstep (s : State) : Host.Outcome State Fault Refusal := .next (s.stepLfsr Config.params)

/-- DLOAD (R61). -/
def execDload (s : State) : Host.Outcome State Fault Refusal := .next s.loadDuty

/-- LSTEP_DLOAD: the step, then the load from the new LFSR (R36). -/
def execLstepDload (s : State) : Host.Outcome State Fault Refusal := .next (s.stepLfsr Config.params).loadDuty

/-- FCINC (R44). -/
def execFcinc (s : State) : Host.Outcome State Fault Refusal := .next s.incFc

/-- DREAD (R62): the value is returned to the comparator; no register changes. -/
def execDread (s : State) : Host.Outcome State Fault Refusal := .next s.readDuty

end Sys2Proof.Machine
end

