-- ==== Sys2Proof/Machine/Events.lean ====
section
/-!
DEFINITION. The meanings of format EV: RESET (spec/40_frame_sequencer.md R42), TICK (R41), HOLD (R43).
-/

namespace Sys2Proof.Machine

/-- RESET (R42). A tick presented with it is discarded (R34). -/
def execReset (_tick : BitVec 1) (s : State) : Host.Outcome State Fault Refusal := .next s.zeroAll

/-- TICK (R41): the four steps. It leaves PEND and BUSY alone: they are the delivery's (notes/assumptions/20.md). -/
def execTick (s : State) : Host.Outcome State Fault Refusal := .next (s.tick Config.params)

/-- HOLD (R43): everything keeps its value. -/
def execHold (s : State) : Host.Outcome State Fault Refusal := .next s

end Sys2Proof.Machine
end

