-- ==== Sys2Proof/Machine/Phases.lean ====
section
/-!
DEFINITION. The meanings of format PH, each the part of a TICK after FCINC (spec/40_frame_sequencer.md R46 to R49).
-/

namespace Sys2Proof.Machine

/-- PH_START: the mandatory advance, whatever LFSR holds (R46). -/
def execPhStart (s : State) : Host.Outcome State Fault Refusal := .next (s.stepLfsr Config.params)

/-- PH_CHECK at phase word 8 (R47). -/
def execPhCheck08 (s : State) : Host.Outcome State Fault Refusal := .next (s.resample Config.params)

/-- PH_CHECK at phase word 16 (R47). -/
def execPhCheck10 (s : State) : Host.Outcome State Fault Refusal := .next (s.resample Config.params)

/-- PH_CHECK at phase word 24 (R47). -/
def execPhCheck18 (s : State) : Host.Outcome State Fault Refusal := .next (s.resample Config.params)

/-- PH_END: the load of the latch (R48). -/
def execPhEnd (s : State) : Host.Outcome State Fault Refusal := .next s.loadDuty

/-- PH_IDLE, `p[2:0] = 1`: nothing after FCINC (R49). -/
def execPhIdleLow1 (_hi : BitVec 2) (s : State) : Host.Outcome State Fault Refusal := .next s

/-- PH_IDLE, `p[2:0] = 2`: nothing after FCINC (R49). -/
def execPhIdleLow2 (_hi : BitVec 2) (s : State) : Host.Outcome State Fault Refusal := .next s

/-- PH_IDLE, `p[2:0] = 3`: nothing after FCINC (R49). -/
def execPhIdleLow3 (_hi : BitVec 2) (s : State) : Host.Outcome State Fault Refusal := .next s

/-- PH_IDLE, `p[2:0] = 4`: nothing after FCINC (R49). -/
def execPhIdleLow4 (_hi : BitVec 2) (s : State) : Host.Outcome State Fault Refusal := .next s

/-- PH_IDLE, `p[2:0] = 5`: nothing after FCINC (R49). -/
def execPhIdleLow5 (_hi : BitVec 2) (s : State) : Host.Outcome State Fault Refusal := .next s

/-- PH_IDLE, `p[2:0] = 6`: nothing after FCINC (R49). -/
def execPhIdleLow6 (_hi : BitVec 2) (s : State) : Host.Outcome State Fault Refusal := .next s

/-- PH_IDLE at phase word 7: nothing after FCINC (R49). -/
def execPhIdle07 (s : State) : Host.Outcome State Fault Refusal := .next s

/-- PH_IDLE at phase word 15: nothing after FCINC (R49). -/
def execPhIdle0F (s : State) : Host.Outcome State Fault Refusal := .next s

/-- PH_IDLE at phase word 23: nothing after FCINC (R49). -/
def execPhIdle17 (s : State) : Host.Outcome State Fault Refusal := .next s

end Sys2Proof.Machine
end

