-- ==== Sys2Proof/Machine/Dispatch.lean ====
section
/-!
DEFINITION. One arm for each operation of spec/opcode_table.json, each one direct call of its meaning.
-/

namespace Sys2Proof.Machine

def exec (i : Instr) (s : State) : Host.Outcome State Fault Refusal :=
  match i with
  | .reset tick => Sys2Proof.Machine.execReset tick s
  | .tick => Sys2Proof.Machine.execTick s
  | .hold => Sys2Proof.Machine.execHold s
  | .phStart => Sys2Proof.Machine.execPhStart s
  | .phCheck08 => Sys2Proof.Machine.execPhCheck08 s
  | .phCheck10 => Sys2Proof.Machine.execPhCheck10 s
  | .phCheck18 => Sys2Proof.Machine.execPhCheck18 s
  | .phEnd => Sys2Proof.Machine.execPhEnd s
  | .phIdleLow1 hi => Sys2Proof.Machine.execPhIdleLow1 hi s
  | .phIdleLow2 hi => Sys2Proof.Machine.execPhIdleLow2 hi s
  | .phIdleLow3 hi => Sys2Proof.Machine.execPhIdleLow3 hi s
  | .phIdleLow4 hi => Sys2Proof.Machine.execPhIdleLow4 hi s
  | .phIdleLow5 hi => Sys2Proof.Machine.execPhIdleLow5 hi s
  | .phIdleLow6 hi => Sys2Proof.Machine.execPhIdleLow6 hi s
  | .phIdle07 => Sys2Proof.Machine.execPhIdle07 s
  | .phIdle0F => Sys2Proof.Machine.execPhIdle0F s
  | .phIdle17 => Sys2Proof.Machine.execPhIdle17 s
  | .nop => Sys2Proof.Machine.execNop s
  | .lstep => Sys2Proof.Machine.execLstep s
  | .dload => Sys2Proof.Machine.execDload s
  | .lstepDload => Sys2Proof.Machine.execLstepDload s
  | .fcinc => Sys2Proof.Machine.execFcinc s
  | .dread => Sys2Proof.Machine.execDread s

end Sys2Proof.Machine
end

