-- ==== Sys2Proof/Machine/Step.lean ====
section
/-!
DEFINITION. One step: the next move of the schedule is taken from it and carried out. No move is HOLD (spec/40_frame_sequencer.md R43:
"the absence of an event").
-/

namespace Sys2Proof.Machine

/-- An action carried out. -/
def perform (a : Action) (s : State) : Host.Outcome State Fault Refusal :=
  match a with
  | .run i => exec i s
  | .overflow => .next s.overflow
  | .serviceBegin => .next s.beginService
  | .serviceSteps => .next (s.stepService Config.params)
  | .serviceEnd => .next s.endService

/-- One step (notes/assumptions/1.md, 11.md). -/
def step (s : State) : Host.Outcome State Fault Refusal :=
  match s.input with
  | [] => exec .hold s
  | m :: rest => perform (select m s) (s.setInput rest)

/-- The state in which the next step runs the operation of a table word: the word is the next move, and no tick is pending or in
progress (notes/assumptions/1.md, 19.md). -/
def State.withFetchWord (s : State) (nbits w : Nat) : State := s.placeWord nbits w

end Sys2Proof.Machine
end

