-- ==== Sys2Proof/Machine/Trace.lean ====
section
/-!
DEFINITION. Traces, the block's substitute for programs (spec/30_encoding.md R39, R40): their lines, their encoding as event words, the
pseudo-events, and a test bench that runs them. The bench is no part of the hardware (R33, R82); lines are held after parsing, so
the text's characters and comments are not modelled (notes/assumptions/17.md).
-/

namespace Sys2Proof.Machine

/-- The names a `.param` or `.expect` line may use (R39). -/
inductive TraceName where
  | poly
  | badMask
  | lfsr
  | fc
  | duty
  deriving DecidableEq, Repr

/-- A line of a trace (R39). `TICK`, `HOLD` and `PERIOD` without a count are those with count 1 (R40). -/
inductive TraceLine where
  | reset
  | tick (count : Nat)
  | hold (count : Nat)
  | period (count : Nat)
  | param (name : TraceName) (value : Nat)
  | state (lfsr fc duty : Nat)
  | expect (values : List (TraceName × Nat))
  | dread (value : Nat)
  | blank
  deriving DecidableEq, Repr

/-- The event words of a line; directives encode to nothing, and the pseudo-events are expanded (R39, R40). -/
def TraceLine.words : TraceLine → List EventWord
  | .reset => [0b10#2]
  | .tick n => List.replicate n 0b01#2
  | .hold n => List.replicate n 0b00#2
  | .period n => List.replicate (Config.period * n) 0b01#2
  | .param _ _ => []
  | .state _ _ _ => []
  | .expect _ => []
  | .dread _ => []
  | .blank => []

/-- The encoding of a trace: its event words in order (R39). -/
def traceWords (t : List TraceLine) : List EventWord := t.flatMap TraceLine.words

/-- The line is an event, not a directive (R39). -/
def TraceLine.isEvent : TraceLine → Bool
  | .reset => true
  | .tick _ => true
  | .hold _ => true
  | .period _ => true
  | .param _ _ => false
  | .state _ _ _ => false
  | .expect _ => false
  | .dread _ => false
  | .blank => false

/-- The line fixes a parameter. -/
def TraceLine.isParam : TraceLine → Bool
  | .param _ _ => true
  | _ => false

/-- A value a `.param` line may give: a non-zero 32-bit POLY, or one of the two masks (R5, D1, D2). DESIGN CHOICE: the names of the
registers, which the grammar of R39 allows after `.param` too, are no parameters and are refused (notes/assumptions/22.md). -/
def paramAdmitted (name : TraceName) (value : Nat) : Bool :=
  match name with
  | .poly => decide (0 < value) && decide (value < 2 ^ 32)
  | .badMask => value == 0x18 || value == 0x0C
  | .lfsr => false
  | .fc => false
  | .duty => false

/-- What R39 asks of a single line: counts of 1 or more. That the values of `.param`, `.state` and `.dread` must fit, and those of `.expect`
need not, is the model's (DESIGN CHOICE, notes/assumptions/22.md). -/
def TraceLine.wellFormed : TraceLine → Bool
  | .reset => true
  | .tick n => decide (1 ≤ n)
  | .hold n => decide (1 ≤ n)
  | .period n => decide (1 ≤ n)
  | .param n v => paramAdmitted n v
  | .state l f d => decide (l < 2 ^ 32) && decide (f < 2 ^ 5) && decide (d < 2 ^ 8)
  | .expect vs => !vs.isEmpty
  | .dread v => decide (v < 2 ^ 8)
  | .blank => true

/-- "`.param` ... must come before the first event" (R39). DESIGN CHOICE: two `.param` lines for one name before it are both allowed, and the
later one holds (notes/assumptions/22.md). -/
def paramsFirst : List TraceLine → Bool
  | [] => true
  | l :: rest => (!l.isEvent || rest.all (fun r => !r.isParam)) && paramsFirst rest

/-- A trace the syntax of R39 allows. -/
def traceWellFormed (t : List TraceLine) : Bool := t.all TraceLine.wellFormed && paramsFirst t

/-- TICK `n` times (R40). -/
def State.ticks (P : Config.Params) : Nat → State → State
  | 0, s => s
  | n + 1, s => State.ticks P n (s.tick P)

/-- The test bench: the parameters, which are those it started with until a `.param` line fixes them (notes/assumptions/22.md), the machine's
state, and whether every expectation so far was met. -/
structure Bench where
  params : Config.Params
  state : State
  passed : Bool
  deriving DecidableEq, Repr

/-- The value a name stands for on the bench (R39). -/
def Bench.value (b : Bench) : TraceName → Nat
  | .poly => b.params.poly.toNat
  | .badMask => b.params.badMask.toNat
  | .lfsr => b.state.lfsr.toNat
  | .fc => b.state.fc.toNat
  | .duty => b.state.duty.toNat

/-- The parameters after a `.param` line. DESIGN CHOICE: a value that is not admitted changes nothing (`TraceLine.wellFormed` refuses the
line), and a second line for the same name replaces the first (notes/assumptions/17.md, 22.md). -/
def setParam (P : Config.Params) (name : TraceName) (value : Nat) : Config.Params :=
  match name with
  | .poly =>
    if h : value < 2 ^ 32 ∧ BitVec.ofNat 32 value ≠ 0#32 then { P with poly := BitVec.ofNat 32 value, poly_ne_zero := h.2 }
    else P
  | .badMask =>
    if value = 0x18 then { P with mask := .mask18 }
    else if value = 0x0C then { P with mask := .mask0C }
    else P
  | .lfsr => P
  | .fc => P
  | .duty => P

/-- The test-bench directive `.state`: all three registers at once; "not an operation of the hardware" (R39). -/
def State.forced (s : State) (lfsr fc duty : Nat) : State :=
  ((s.setLfsr (BitVec.ofNat 32 lfsr)).setFc (BitVec.ofNat 5 fc)).setDuty (BitVec.ofNat 8 duty)

/-- One line on the bench (R39, R40). DESIGN CHOICE (notes/assumptions/22.md), since R39 does not say: of several `.param` lines for one name
the last before the first event fixes the parameter for the trace; an `.expect` on POLY or BADMASK is checked against the parameters at
that point, which before the first `.param` line of the name are those the bench started with; a trace `paramsFirst` refuses is run all
the same, each line from where it stands; an expectation that is not met does not end the run. A `.dread` compares the port with its value
and leaves no entry in `State.dreads`; `.state` leaves PEND and BUSY; a TICK here is the atomic one, whatever PEND and BUSY hold. -/
def benchLine (b : Bench) (l : TraceLine) : Bench :=
  match l with
  | .reset => { b with state := b.state.zeroAll }
  | .tick n => { b with state := b.state.ticks b.params n }
  | .hold _ => b
  | .period n => { b with state := b.state.ticks b.params (Config.period * n) }
  | .param name v => { b with params := setParam b.params name v }
  | .state lfsr fc duty => { b with state := b.state.forced lfsr fc duty }
  | .expect vs => { b with passed := b.passed && vs.all (fun e => b.value e.1 == e.2) }
  | .dread v => { b with passed := b.passed && b.state.dutyPort.toNat == v }
  | .blank => b

/-- A trace on the bench, its lines in order (R39). -/
def benchRun (b : Bench) (t : List TraceLine) : Bench := t.foldl benchLine b

end Sys2Proof.Machine
end

