-- ==== Sys2Proof/Safety.lean ====
section
/-!
DEFINITION. The terms claims are made in: the sequence of the generator, the values the latch can hold, the machine's invariant, counts
over runs of ticks, and the assumption NoOverrun.
-/

namespace Sys2Proof.Machine

/-- `LStep` applied `k` times (R54). -/
def lStepN (poly : LfsrWord) : Nat → LfsrWord → LfsrWord
  | 0, s => s
  | k + 1, s => lStep poly (lStepN poly k s)

/-- The value is one the sequence from the seed 0 comes to (R54, R55 (d)). -/
def OnOrbit (poly v : LfsrWord) : Prop := ∃ k, v = lStepN poly k 0#32

/-- The sequence from 0 does not return to 0 in fewer than `bound` steps: the named hypothesis of R57 (b). Nothing assumes it. -/
def LongCycle (poly : LfsrWord) (bound : Nat) : Prop := ∀ k, 0 < k → k < bound → lStepN poly k 0#32 ≠ 0#32

/-- `k` is the index of the highest set bit of `poly` (R55). -/
def HighestBit (poly : LfsrWord) (k : Nat) : Prop := 2 ^ k ≤ poly.toNat ∧ poly.toNat < 2 ^ (k + 1)

/-- The number of set bits at index `i` and above (R55 (e)). -/
def setBitsFrom (v : LfsrWord) (i : Nat) : Nat := (List.range 32).countP (fun j => decide (i ≤ j) && v.getLsbD j)

/-- The nine values a load can give (R59, R65). -/
def loadedDuties : List Byte :=
  [0x0F#8, 0x2F#8, 0x4F#8, 0x6F#8, 0x8F#8, 0xAF#8, 0xCF#8, 0xEF#8, 0xFF#8]

/-- A value `DUTY` can hold: zero from reset, or a loaded one (R20 (b), R65). -/
def dutyLegal (d : Byte) : Bool := d == 0#8 || loadedDuties.contains d

/-- The machine's invariant (R20 (b), R54, R55): the latch holds a legal value and the LFSR is on the sequence from the seed. -/
structure State.Inv (s : State) : Prop where
  duty_legal : dutyLegal s.duty = true
  on_orbit : OnOrbit Config.params.poly s.lfsr

/-- A resample (R47) as a function of the value: the step if it is bad. -/
def resampled (P : Config.Params) (v : LfsrWord) : LfsrWord := if bad P.badMask v then lStep P.poly v else v

/-- The value a period's load uses: the mandatory advance and three resamples, from the value before the period (R67). -/
def periodValue (P : Config.Params) (v : LfsrWord) : LfsrWord :=
  resampled P (resampled P (resampled P (lStep P.poly v)))

/-- LSTEPs in the next `n` ticks (R56). -/
def advanceCount (P : Config.Params) : Nat → State → Nat
  | 0, _ => 0
  | n + 1, s => (advEn P.badMask (phaseWord s.fc) s.lfsr).toNat + advanceCount P n (s.tick P)

/-- Mandatory advances in the next `n` ticks: those at phase word 0 (R46). -/
def mandatoryCount (P : Config.Params) : Nat → State → Nat
  | 0, _ => 0
  | n + 1, s => (atStart (phaseWord s.fc)).toNat + mandatoryCount P n (s.tick P)

/-- DLOADs in the next `n` ticks (R61). -/
def loadCount (P : Config.Params) : Nat → State → Nat
  | 0, _ => 0
  | n + 1, s => (loadEn (phaseWord s.fc)).toNat + loadCount P n (s.tick P)

/-- The move stands for an overflow of the Frame Clock (R70, R34). -/
def Input.isOverflow : Input → Bool
  | .ev w => decodeEv w == .tick
  | .overflow => true
  | .dread => false
  | .serviceBegin => false
  | .serviceSteps => false
  | .serviceEnd => false
  | .ph _ => false
  | .cw _ => false
  | .fcinc => false

/-- The move is one the hardware's agents make while it runs (R8): not a reset, and not the test bench's. -/
def Input.isRunning : Input → Bool
  | .ev w => !w.getLsbD 1
  | .dread => true
  | .overflow => true
  | .serviceBegin => true
  | .serviceSteps => true
  | .serviceEnd => true
  | .ph _ => false
  | .cw _ => false
  | .fcinc => false

/-- The step about to be taken keeps NoOverrun: an overflow finds every earlier one serviced (R74). -/
def State.noOverrun (s : State) : Bool :=
  match s.input with
  | [] => true
  | m :: _ => !m.isOverflow || s.quiet

/-- Ticks a service in that stage still owes: one, between its entry and its steps (R70). -/
def Service.owed : Service → Nat
  | .idle => 0
  | .begun => 1
  | .stepped => 0

/-- Overflows taken note of whose tick has not been done yet: one pending, and one whose service has begun (R70). -/
def State.owed (s : State) : Nat := s.pend.toNat + s.service.owed

end Sys2Proof.Machine
end

