-- ==== Sys2Proof/Certificates/Slice0/Obligations.lean ====
section
/-!
DEFINITION. The statements for the provers. Each docstring names the rule of spec/ it formalises.
-/

open Sys2Proof Sys2Proof.Machine

/-! ### Encoding -/

/-- R34, R35, R36: the word of an operation decodes to that operation, with every bit the row leaves open. That an operation carries those
bits is the model's choice (log entry 21); the formats EV and CW are the spec's decision D3 (log entry 4). -/
def Obligations.EncodeThenDecodeIsIdentity : Prop :=
  ∀ i : Instr, i.hasEncoding = true → decode (encode i) = .ok i

/-- An operation that was decoded from a word, by the tables of R34, R35 and R36, encodes to that word: no bit of it is dropped. The model's
choice (log entry 21): the bits a row leaves open are carried, so that `0b11` encodes to `0b11` again and not to R34's canonical `0b10`, and
`p[4:3]` of an idle row is kept. -/
def Obligations.DecodeThenEncodeIsIdentity : Prop :=
  ∀ (w : RawWord) (i : Instr), decode w = .ok i → encode i = w

/-- R38: no word that fits its format is illegal, and nothing else decodes. -/
def Obligations.EveryWordOfAFormatDecodes : Prop :=
  ∀ w : RawWord, w.wellFormed = true ↔ ∃ i : Instr, decode w = .ok i

/-- R34, R35, R36: a word is accepted by exactly one row of the opcode table, the row of the operation it decodes to. -/
def Obligations.ExactlyOneTableRowAcceptsAWord : Prop :=
  ∀ (w : RawWord) (i : Instr), decode w = .ok i →
    (opcodeRows.filter (fun r => r.accepts w)).map TableRow.mnemonic = [i.mnemonic]

/-- Words of every format, written out from R34, R35 and R36; the formats EV and CW, and RESET for `0b11`, are the spec's decision D3
(log entry 4). -/
def Obligations.SampleWordsDecodeAsTheTablesSay : Prop :=
  decode ⟨.ev, 0b10⟩ = .ok (.reset 0#1) ∧ decode ⟨.ev, 0b11⟩ = .ok (.reset 1#1) ∧ decode ⟨.ev, 0b01⟩ = .ok .tick ∧
  decode ⟨.ph, 0b00000⟩ = .ok .phStart ∧ decode ⟨.ph, 0b10000⟩ = .ok .phCheck10 ∧ decode ⟨.ph, 0b11111⟩ = .ok .phEnd ∧
  decode ⟨.ph, 0b01100⟩ = .ok (.phIdleLow4 1#2) ∧ decode ⟨.ph, 0b10111⟩ = .ok .phIdle17 ∧
  decode ⟨.cw, 0b10⟩ = .ok .lstep ∧ decode ⟨.cw, 0b01⟩ = .ok .dload ∧ decode ⟨.cw, 0b00⟩ = .ok .nop

/-- The four event words of R34; reset wins, and the tick presented with it is discarded. R34 marks the event word and that priority as the
spec's own decision D3 (log entry 4), so this rests on a choice and not on the source. -/
def Obligations.EventWordsDecodeAndResetWins : Prop :=
  decodeEv 0b10#2 = .reset 0#1 ∧ decodeEv 0b11#2 = .reset 1#1 ∧ decodeEv 0b01#2 = .tick ∧ decodeEv 0b00#2 = .hold ∧
  (∀ w : EventWord, w &&& 0b10#2 = 0b10#2 → ∃ b, decodeEv w = .reset b) ∧
  (∀ (b c : BitVec 1) (s : State), exec (.reset b) s = exec (.reset c) s) ∧
  TraceLine.words .reset = [0b10#2]

/-! ### The result of each operation -/

/-- R42: RESET, in every state, zeroes the three registers and the hidden bits, and is what both its event words decode to. What the comparator has read and the moves still to come are not the block's: the model's choice (log entry 18). -/
def Obligations.ResetZeroesTheBlock : Prop :=
  ∀ (b : BitVec 1) (s : State),
    decodeEv (1#1 ++ b) = .reset b ∧
    exec (.reset b) s =
      .next { s with lfsr := 0x00000000#32, fc := 0#5, duty := 0x00#8, pend := false, service := .idle }

/-- R41: TICK in every state: the four steps, written out. -/
def Obligations.TickPerformsTheFourSteps : Prop :=
  ∀ s : State,
    let p : PhaseWord := s.fc + 1#5
    let lfsr' : LfsrWord :=
      if p = 0#5 ∨ (p.extractLsb' 0 3 = 0#3 ∧ s.lfsr.extractLsb' 0 8 &&& Config.params.badMask = 0#8) then
        (if s.lfsr.getLsbD 0 then s.lfsr >>> 1 else (s.lfsr >>> 1) ^^^ Config.params.poly)
      else s.lfsr
    let low : Byte := lfsr'.extractLsb' 0 8
    let duty' : Byte :=
      if p = 31#5 then (if low.getLsbD 4 then 0xFF#8 else (low &&& 0xF0#8) ||| 0x0F#8) else s.duty
    exec .tick s = .next { s with fc := p, lfsr := lfsr', duty := duty' }

/-- R43: HOLD, `EV = 0b00`, leaves everything as it is, however often. -/
def Obligations.HoldKeepsEveryRegister : Prop :=
  decodeEv 0b00#2 = .hold ∧ ∀ s : State, exec .hold s = .next s

/-- R44 as a whole: what FCINC writes, that every TICK performs it first, its period, and FC after n ticks. -/
def Obligations.FrameCounterCountsTicks : Prop :=
  (∀ s : State, exec .fcinc s = .next { s with fc := BitVec.ofNat 5 ((s.fc.toNat + 1) % 32) }) ∧
  (∀ s : State, exec .tick s = exec (decodePh (s.fc + 1#5)) { s with fc := s.fc + 1#5 }) ∧
  (∀ (P : Config.Params) (s : State), (s.ticks P 32).fc = s.fc) ∧
  (∀ (P : Config.Params) (n : Nat) (s : State), (s.ticks P n).fc.toNat = (s.fc.toNat + n) % 32) ∧
  (∀ (P : Config.Params) (n : Nat), (State.reset.ticks P n).fc.toNat = n % 32)

/-- R46: PH_START: one step of the generator, whatever LFSR holds; DUTY and FC are left alone; control word `0b10`. -/
def Obligations.PhStartAlwaysAdvances : Prop :=
  decodePh 0b00000#5 = .phStart ∧
  (∀ (mask : Byte) (v : LfsrWord), controlWord mask 0#5 v = 0b10#2) ∧
  ∀ s : State, exec .phStart s =
    .next { s with lfsr := if s.lfsr.getLsbD 0 then s.lfsr >>> 1 else (s.lfsr >>> 1) ^^^ Config.params.poly }

/-- R47: PH_CHECK at its three phase words: one step if the low byte has no bit of the mask, else nothing. -/
def Obligations.PhCheckResamplesABadValueOnce : Prop :=
  ∀ i : Instr, i = .phCheck08 ∨ i = .phCheck10 ∨ i = .phCheck18 →
    (∃ p : PhaseWord, decodePh p = i ∧ (p = 8#5 ∨ p = 16#5 ∨ p = 24#5)) ∧
    ∀ s : State, exec i s =
      .next { s with lfsr :=
        if s.lfsr.extractLsb' 0 8 &&& Config.params.badMask = 0#8 then
          (if s.lfsr.getLsbD 0 then s.lfsr >>> 1 else (s.lfsr >>> 1) ^^^ Config.params.poly)
        else s.lfsr }

/-- R48: PH_END: DUTY is loaded from the low byte; LFSR is not written; control word `0b01`. -/
def Obligations.PhEndLoadsTheLatch : Prop :=
  decodePh 0b11111#5 = .phEnd ∧
  (∀ (mask : Byte) (v : LfsrWord), controlWord mask 31#5 v = 0b01#2) ∧
  ∀ s : State, exec .phEnd s =
    .next { s with duty :=
      if s.lfsr.getLsbD 4 then 0xFF#8 else (s.lfsr.extractLsb' 0 8 &&& 0xF0#8) ||| 0x0F#8 }

/-- R49: every phase word from 1 to 30 that is no multiple of 8 is PH_IDLE: control word `0b00`, nothing written. -/
def Obligations.PhIdleWritesNothing : Prop :=
  (∀ p : PhaseWord, p.extractLsb' 0 3 ≠ 0#3 → p ≠ 31#5 →
    phaseClass p = .idle ∧
    (∀ (mask : Byte) (v : LfsrWord), controlWord mask p v = 0b00#2) ∧
    ∀ s : State, exec (decodePh p) s = .next s) ∧
  (∀ (i : Instr) (hi : BitVec 2) (s : State),
    i = .phIdleLow1 hi ∨ i = .phIdleLow2 hi ∨ i = .phIdleLow3 hi ∨ i = .phIdleLow4 hi ∨ i = .phIdleLow5 hi ∨
      i = .phIdleLow6 hi ∨ i = .phIdle07 ∨ i = .phIdle0F ∨ i = .phIdle17 →
    exec i s = .next s)

/-- R36: the four control words and what each does; no phase word generates `0b11`. The control word is the spec's decision D3 (log entry 4). -/
def Obligations.ControlWordsSelectStepAndLoad : Prop :=
  (decodeCw 0b00#2 = .nop ∧ decodeCw 0b10#2 = .lstep ∧ decodeCw 0b01#2 = .dload ∧ decodeCw 0b11#2 = .lstepDload) ∧
  (∀ s : State, exec .nop s = .next s) ∧
  (∀ s : State, exec .lstep s = .next { s with lfsr := lStep Config.params.poly s.lfsr }) ∧
  (∀ s : State, exec .dload s = .next { s with duty := dMap (s.lfsr.extractLsb' 0 8) }) ∧
  (∀ s : State, exec .lstepDload s =
    .next { s with
      lfsr := lStep Config.params.poly s.lfsr
      duty := dMap ((lStep Config.params.poly s.lfsr).extractLsb' 0 8) }) ∧
  (∀ (mask : Byte) (p : PhaseWord) (v : LfsrWord),
    (controlWord mask p v).getLsbD 1 = advEn mask p v ∧ (controlWord mask p v).getLsbD 0 = loadEn p ∧
    controlWord mask p v ≠ 0b11#2)

/-- R61: DLOAD: DUTY is `DMap` of the low byte, whatever DUTY held; nothing else changes. -/
def Obligations.DloadIsAPureFunctionOfTheLowByte : Prop :=
  ∀ s : State, exec .dload s =
    .next { s with duty :=
      if s.lfsr.getLsbD 4 then 0xFF#8 else BitVec.ofNat 8 (s.lfsr.toNat % 256 / 16 * 16 + 15) }

/-- R62: DREAD gives the comparator DUTY and changes no register and no hidden bit. Where the value goes (`dreads`) is the model's
choice (log entry 9). -/
def Obligations.DreadReturnsDutyAndChangesNoRegister : Prop :=
  ∀ s : State, exec .dread s = .next { s with dreads := s.duty :: s.dreads }

/-! ### The pure functions -/

/-- R50: the step, bit by bit: the bit shifted out decides; bit 31 of the result; the corner cases and worked examples of the rule. -/
def Obligations.LStepShiftsAndFeedsBackOnZero : Prop :=
  (∀ poly s : LfsrWord, s.getLsbD 0 = true → lStep poly s = s >>> 1) ∧
  (∀ poly s : LfsrWord, s.getLsbD 0 = false → lStep poly s = (s >>> 1) ^^^ poly) ∧
  (∀ poly s : LfsrWord, (lStep poly s).getLsbD 31 = (!s.getLsbD 0 && poly.getLsbD 31)) ∧
  (∀ poly : LfsrWord, lStep poly 0x00000000#32 = poly ∧ lStep poly 0x00000001#32 = 0#32 ∧
    lStep poly 0xFFFFFFFF#32 = 0x7FFFFFFF#32 ∧ lStep poly 0x80000000#32 = 0x40000000#32 ^^^ poly ∧
    lStep poly 0xFFFFFFFE#32 = 0x7FFFFFFF#32 ^^^ poly ∧
    lStep poly 0x7FFFF159#32 = 0x3FFFF8AC#32 ∧ lStep poly 0x3FFFF8AC#32 = 0x1FFFFC56#32 ^^^ poly) ∧
  Config.params.poly ≠ 0#32 ∧
  decodeCw 0b10#2 = .lstep ∧
  ∀ s : State, exec .lstep s = .next { s with lfsr := lStep Config.params.poly s.lfsr }

/-- R51: the goodness test under each mask, which bits it reads, and that a quarter of the bytes are bad under each. -/
def Obligations.GoodnessTestReadsTwoBits : Prop :=
  (∀ (mask : Byte) (s : LfsrWord), bad mask s = true ↔ s.extractLsb' 0 8 &&& mask = 0#8) ∧
  (∀ s : LfsrWord, bad 0x18#8 s = (!s.getLsbD 4 && !s.getLsbD 3)) ∧
  (∀ s : LfsrWord, bad 0x0C#8 s = (!s.getLsbD 3 && !s.getLsbD 2)) ∧
  (∀ P : Config.Params, P.badMask = 0x18#8 ∨ P.badMask = 0x0C#8) ∧
  (∀ (mask : Byte) (s t : LfsrWord), s.extractLsb' 0 8 = t.extractLsb' 0 8 → bad mask s = bad mask t) ∧
  (List.range 256).countP (fun b => bad 0x18#8 (BitVec.ofNat 32 b)) = 64 ∧
  (List.range 256).countP (fun b => bad 0x0C#8 (BitVec.ofNat 32 b)) = 64 ∧
  (List.range 256).countP (fun b => bad 0x18#8 (BitVec.ofNat 32 b) != bad 0x0C#8 (BitVec.ofNat 32 b)) = 64

/-- The truth table of the advance condition, the function `AdvEn` of R52 by itself; that TICK uses it is `TickPerformsTheFourSteps`. That it
holds at p = 0 whatever the LFSR holds rests on the grouping "A or (B and C)", which R52 marks as the spec's own decision D12. -/
def Obligations.AdvanceConditionTruthTable : Prop :=
  ∀ (mask : Byte) (s : LfsrWord),
    advEn mask 0#5 s = true ∧
    (∀ p : PhaseWord, p = 8#5 ∨ p = 16#5 ∨ p = 24#5 → advEn mask p s = bad mask s) ∧
    (∀ p : PhaseWord, p ≠ 0#5 → p ≠ 8#5 → p ≠ 16#5 → p ≠ 24#5 → advEn mask p s = false)

/-- R45: the phase decode is total, its four cases do not overlap, and the load condition is `p == 31`. -/
def Obligations.PhaseDecodeClassifiesEveryPhaseWord : Prop :=
  ∀ p : PhaseWord,
    (phaseClass p = .start ↔ p = 0#5) ∧
    (phaseClass p = .check ↔ p = 8#5 ∨ p = 16#5 ∨ p = 24#5) ∧
    (phaseClass p = .end_ ↔ p = 31#5) ∧
    (phaseClass p = .idle ↔ p.extractLsb' 0 3 ≠ 0#3 ∧ p ≠ 31#5) ∧
    (loadEn p = true ↔ p = 31#5)

/-- R60: the complete table of the duty mapping by nibble; all sixteen bytes of a nibble map alike. -/
def Obligations.DutyMapTableByNibble : Prop :=
  ∀ b : Byte,
    dMap b =
      if b.extractLsb' 4 4 = 0x0#4 then 0x0F#8 else if b.extractLsb' 4 4 = 0x2#4 then 0x2F#8
      else if b.extractLsb' 4 4 = 0x4#4 then 0x4F#8 else if b.extractLsb' 4 4 = 0x6#4 then 0x6F#8
      else if b.extractLsb' 4 4 = 0x8#4 then 0x8F#8 else if b.extractLsb' 4 4 = 0xA#4 then 0xAF#8
      else if b.extractLsb' 4 4 = 0xC#4 then 0xCF#8 else if b.extractLsb' 4 4 = 0xE#4 then 0xEF#8
      else 0xFF#8

/-- R59: the mapping and its consequences: its formula, its nine values, each taken, and which bits of the byte matter. -/
def Obligations.DutyMapTakesNineValues : Prop :=
  (∀ b : Byte, b.getLsbD 4 = true → dMap b = 0xFF#8) ∧
  (∀ b : Byte, b.getLsbD 4 = false → dMap b = (b &&& 0xF0#8) ||| 0x0F#8) ∧
  (∀ d : Byte, (∃ b : Byte, dMap b = d) ↔ d ∈ loadedDuties) ∧
  (∀ b c : Byte, b.extractLsb' 4 4 = c.extractLsb' 4 4 → dMap b = dMap c) ∧
  (List.range 256).countP (fun b => dMap (BitVec.ofNat 8 b) == 0xFF#8) = 128

/-! ### The structure of the generator -/

/-- R55 (a), (b): the values below 2^(k+1), for k the highest set bit of POLY, are closed under the step, and every value enters
them in at most 31 - k steps. -/
def Obligations.StepSpaceIsClosedAndEntered : Prop :=
  ∀ (poly : LfsrWord) (k : Nat), HighestBit poly k →
    (∀ s : LfsrWord, s.toNat < 2 ^ (k + 1) → (lStep poly s).toNat < 2 ^ (k + 1)) ∧
    (∀ s : LfsrWord, (lStepN poly (31 - k) s).toNat < 2 ^ (k + 1))

/-- R55 (c): on that space the step is a bijection. -/
def Obligations.StepIsABijectionOnItsSpace : Prop :=
  ∀ (poly : LfsrWord) (k : Nat), HighestBit poly k →
    ∀ t : LfsrWord, t.toNat < 2 ^ (k + 1) → ∃! s : LfsrWord, s.toNat < 2 ^ (k + 1) ∧ lStep poly s = t

/-- R55 (d): the sequence from the seed 0 returns to 0, for the first time after at least 2 and at most 2^(k+1) steps. -/
def Obligations.SeedSequenceReturnsToZero : Prop :=
  ∀ (poly : LfsrWord) (k : Nat), HighestBit poly k →
    ∃ n : Nat, 2 ≤ n ∧ n ≤ 2 ^ (k + 1) ∧ lStepN poly n 0#32 = 0#32 ∧ LongCycle poly n

/-- R55 (e): a fixed point exists exactly when POLY has an even number of set bits; it is then unique, and its bit i is the
exclusive-or of POLY's bits from i up. -/
def Obligations.FixedPointExactlyWhenSetBitCountIsEven : Prop :=
  ∀ poly : LfsrWord,
    ((∃ g : LfsrWord, lStep poly g = g) ↔ setBitsFrom poly 0 % 2 = 0) ∧
    (∀ g : LfsrWord, lStep poly g = g → ∀ i : Nat, i < 32 → (g.getLsbD i = true ↔ setBitsFrom poly i % 2 = 1))

/-- R55 (f): for every non-zero POLY the sequence from the seed never comes to a fixed point. -/
def Obligations.SeedSequenceNeverSettles : Prop :=
  ∀ (P : Config.Params) (v : LfsrWord), OnOrbit P.poly v → lStep P.poly v ≠ v

/-! ### The tick -/

/-- R33, R41: a TICK is FCINC and then the operation its phase word decodes to. -/
def Obligations.TickIsIncrementThenPhaseOperation : Prop :=
  ∀ s t : State, exec .fcinc s = .next t → exec .tick s = exec (decodePh t.fc) t

/-- R36, R45, R52: the operation of a phase word is the operation of the control word that phase word and LFSR generate. -/
def Obligations.PhaseOperationIsItsControlWordsOperation : Prop :=
  ∀ (p : PhaseWord) (s : State),
    exec (decodePh p) s = exec (decodeCw (controlWord Config.params.badMask p s.lfsr)) s

/-- R41 corner case (d): no TICK writes both LFSR and DUTY. -/
def Obligations.NoTickChangesBothLfsrAndDuty : Prop :=
  ∀ s t : State, exec .tick s = .next t → t.lfsr = s.lfsr ∨ t.duty = s.duty

/-- R56: in any 32 consecutive ticks, from any state, the LFSR is advanced at least once and at most four times. -/
def Obligations.AdvancesPerPeriodAreOneToFour : Prop :=
  ∀ (P : Config.Params) (s : State), 1 ≤ advanceCount P 32 s ∧ advanceCount P 32 s ≤ 4

/-- R40: a PERIOD from any state holds exactly one mandatory advance and exactly one load, and leaves FC as it was. -/
def Obligations.PeriodHasOneLoadAndOneMandatoryAdvance : Prop :=
  ∀ (P : Config.Params) (s : State),
    loadCount P 32 s = 1 ∧ mandatoryCount P 32 s = 1 ∧ (s.ticks P 32).fc = s.fc

/-- R20 (d): how many loads and mandatory advances the first n ticks from reset hold. -/
def Obligations.LoadsAndMandatoryAdvancesFromReset : Prop :=
  ∀ (P : Config.Params) (n : Nat),
    loadCount P n State.reset = (n + 1) / 32 ∧ mandatoryCount P n State.reset = n / 32

/-- R67: the 32 ticks after a tick of phase word 31 load the value that the mandatory advance and the three checkpoints make of the
LFSR, and change nothing else. -/
def Obligations.PeriodLoadsTheResampledValue : Prop :=
  ∀ (P : Config.Params) (s : State), s.fc = 31#5 →
    s.ticks P 32 =
      { s with
        lfsr := periodValue P s.lfsr
        duty := dMap (lowByte (periodValue P s.lfsr)) }

/-- R66: after a load, DUTY keeps its value through the next 31 ticks. -/
def Obligations.DutyHoldsBetweenLoads : Prop :=
  ∀ (P : Config.Params) (n : Nat) (s : State), s.fc = 31#5 → n < 32 → (s.ticks P n).duty = s.duty

/-- R85: the first period after reset: LFSR and DUTY at every tick up to the 32nd. -/
def Obligations.FirstPeriodAfterReset : Prop :=
  ∀ (P : Config.Params) (n : Nat), n ≤ 32 →
    let t := State.reset.ticks P n
    t.lfsr = (if n < 8 then 0#32 else if n < 16 then P.poly else if n < 24 then resampled P P.poly
      else if n < 32 then resampled P (resampled P P.poly) else lStep P.poly (resampled P (resampled P P.poly))) ∧
    t.duty = (if n < 31 then 0x00#8 else dMap (lowByte (resampled P (resampled P P.poly)))) ∧
    t.fc = BitVec.ofNat 5 n

/-! ### Rules of the whole machine -/

/-- R68: every operation, in every state, answers a next state, and so does every step. -/
def Obligations.EveryOperationAndStepAnswersNext : Prop :=
  (∀ (i : Instr) (s : State), ∃ t, exec i s = .next t) ∧ ∀ s : State, ∃ t, step s = .next t

/-- R53, R10: LFSR is written by the step of the generator, in the operations that hold one, and by RESET; by nothing else. -/
def Obligations.OnlyAStepOrResetWritesLfsr : Prop :=
  ∀ (i : Instr) (s t : State), exec i s = .next t →
    t.lfsr = s.lfsr ∨
    (t.lfsr = lStep Config.params.poly s.lfsr ∧
      i ∈ [Instr.tick, .phStart, .phCheck08, .phCheck10, .phCheck18, .lstep, .lstepDload]) ∨
    (t.lfsr = 0#32 ∧ ∃ b, i = .reset b)

/-- R42, R11: FC moves by +1, in TICK and FCINC, or to 0, in RESET; nothing else moves it. -/
def Obligations.OnlyAnIncrementOrResetMovesFc : Prop :=
  ∀ (i : Instr) (s t : State), exec i s = .next t →
    (i = .tick ∨ i = .fcinc → t.fc = s.fc + 1#5) ∧
    (∀ b, i = .reset b → t.fc = 0#5) ∧
    (i ≠ .tick → i ≠ .fcinc → (∀ b, i ≠ .reset b) → t.fc = s.fc)

/-- R61, R12: DUTY is written by a load, from the LFSR the operation leaves, and by RESET; a TICK loads only at phase word 31. -/
def Obligations.OnlyALoadOrResetWritesDuty : Prop :=
  ∀ (i : Instr) (s t : State), exec i s = .next t →
    t.duty = s.duty ∨
    (t.duty = dMap (lowByte t.lfsr) ∧ (i ∈ [Instr.phEnd, .dload, .lstepDload] ∨ (i = .tick ∧ t.fc = 31#5))) ∨
    (t.duty = 0#8 ∧ ∃ b, i = .reset b)

/-- R62, R26: LFSR and FC never depend on DUTY, nor on what has been read: operations that start from the same LFSR and FC end with the same
LFSR and FC, whatever DUTY and the rest hold. (That a load does not depend on the old DUTY either is `DloadIsAPureFunctionOfTheLowByte`,
`PhEndLoadsTheLatch` and `TickPerformsTheFourSteps`.) -/
def Obligations.DutyNeverFeedsBackIntoTheGenerator : Prop :=
  ∀ (i : Instr) (s s' t t' : State), s.lfsr = s'.lfsr → s.fc = s'.fc → exec i s = .next t → exec i s' = .next t' →
    t.lfsr = t'.lfsr ∧ t.fc = t'.fc

/-- R20, R65, R55: from any state in which DUTY is 0 or one of the nine loaded values and LFSR is on the sequence from the seed, every
step, whatever move it takes, leads to such a state. -/
def Obligations.EveryStepKeepsTheInvariant : Prop :=
  ∀ s t : State, s.Inv → step s = .next t → t.Inv

/-- R19, R20: the reset state meets the invariant. -/
def Obligations.ResetStateMeetsTheInvariant : Prop := State.reset.Inv

/-- R19, R84: the registers after reset, and the hidden bits at 0; FC and DUTY by the spec's decision D11, the hidden bits by D4 (log entry 10). -/
def Obligations.ResetStateIsAllZero : Prop :=
  State.reset.lfsr = 0x00000000#32 ∧ State.reset.fc = 0#5 ∧ State.reset.duty = 0x00#8 ∧
  State.reset.pend = false ∧ State.reset.busy = false

/-- R86: after a RESET, from whatever state, the same registers follow tick for tick. -/
def Obligations.EveryResetStartsTheSameSequence : Prop :=
  ∀ (b b' : BitVec 1) (s s' t t' : State), exec (.reset b) s = .next t → exec (.reset b') s' = .next t' →
    ∀ n : Nat,
      (t.ticks Config.params n).lfsr = (t'.ticks Config.params n).lfsr ∧
      (t.ticks Config.params n).fc = (t'.ticks Config.params n).fc ∧
      (t.ticks Config.params n).duty = (t'.ticks Config.params n).duty

/-! ### Delivery: the step -/

/-- The step takes the next move from the schedule and runs the operation its word decodes to. The schedule, and the bench's moves, are
the model's (log entries 1 and 5); that a TICK runs where none is pending or in progress is R72. -/
def Obligations.StepRunsTheDecodedOperation : Prop :=
  ∀ (s : State) (rest : List Input),
    (∀ w : EventWord, s.input = .ev w :: rest → decodeEv w ≠ .tick ∨ (s.pend = false ∧ s.service = .idle) →
      step s = exec (decodeEv w) { s with input := rest }) ∧
    (∀ p : PhaseWord, s.input = .ph p :: rest → step s = exec (decodePh p) { s with input := rest }) ∧
    (∀ c : ControlWord, s.input = .cw c :: rest → step s = exec (decodeCw c) { s with input := rest }) ∧
    (s.input = .fcinc :: rest → step s = exec .fcinc { s with input := rest }) ∧
    (s.input = .dread :: rest → step s = exec .dread { s with input := rest })

/-- R43: "HOLD is the absence of an event": a step with no move left changes nothing. -/
def Obligations.StepWithNoMoveHolds : Prop :=
  ∀ s : State, s.input = [] → step s = .next s

/-- R70, R72, R74: a tick presented while one is pending or in progress starts nothing: it sets PEND. That the event word TICK then
acts as an overflow is the model's reading (log entry 7). -/
def Obligations.TickDuringServiceOnlyPends : Prop :=
  ∀ (s : State) (rest : List Input), s.input = .ev 0b01#2 :: rest → s.pend = true ∨ s.service ≠ .idle →
    step s = .next { s with input := rest, pend := true }

/-- R70: OVERFLOW sets PEND; the entry needs PEND = 1 and BUSY = 0, clears PEND and sets BUSY; the steps are those of TICK; the return clears
BUSY. A move that is not enabled has no effect (the model's choice, log entry 8). -/
def Obligations.DeliveryMovesFollowTheFinerModel : Prop :=
  ∀ (s : State) (rest : List Input),
    (s.input = .overflow :: rest → step s = .next { s with input := rest, pend := true }) ∧
    (s.input = .serviceBegin :: rest → s.pend = true → s.service = .idle →
      step s = .next { s with input := rest, pend := false, service := .begun }) ∧
    (s.input = .serviceBegin :: rest → s.pend = false ∨ s.service ≠ .idle → step s = .next { s with input := rest }) ∧
    (s.input = .serviceSteps :: rest → s.service = .begun → ∀ t, exec .tick { s with input := rest } = .next t →
      step s = .next { t with service := .stepped }) ∧
    (s.input = .serviceSteps :: rest → s.service ≠ .begun → step s = .next { s with input := rest }) ∧
    (s.input = .serviceEnd :: rest → s.service = .stepped → step s = .next { s with input := rest, service := .idle }) ∧
    (s.input = .serviceEnd :: rest → s.service ≠ .stepped → step s = .next { s with input := rest })

/-- R70, R74: from a state with nothing pending or in progress, overflow, entry, steps and return together do what one event word TICK
does: the atomic model is exact. -/
def Obligations.ServicedOverflowIsOneTick : Prop :=
  ∀ (s : State) (rest : List Input), s.pend = false → s.service = .idle →
    Sys2Proof.core.run 4 { s with input := .overflow :: .serviceBegin :: .serviceSteps :: .serviceEnd :: rest } =
      Sys2Proof.core.run 1 { s with input := .ev 0b01#2 :: rest }

/-- R71, R74: FC plus what is owed goes up by one with each overflow that finds PEND clear and with nothing else, so that none is serviced twice;
an overflow is lost only where it finds PEND set. A tick owed is counted here; that it is done is said where the schedule holds its service
(`ServicedOverflowIsOneTick`). Of the model: that an event word TICK counts as an overflow also
while a tick is pending or in progress (clauses 1 and 2; log entry 7), that a move which is not enabled does nothing (clause 3; log entry 8),
and that the overrun is in the machine, and loses exactly that overflow (clause 2; log entry 14). -/
def Obligations.NoOverflowIsServicedTwiceAndLossNeedsPend : Prop :=
  ∀ (s t : State) (m : Input) (rest : List Input), s.input = m :: rest → m.isRunning = true → step s = .next t →
    (m.isOverflow = true → s.pend = false →
      t.fc + BitVec.ofNat 5 t.owed = s.fc + BitVec.ofNat 5 s.owed + 1#5) ∧
    (m.isOverflow = true → s.pend = true → t = { s with input := rest }) ∧
    (m.isOverflow = false → t.fc + BitVec.ofNat 5 t.owed = s.fc + BitVec.ofNat 5 s.owed)

/-- Where the step about to be taken keeps NoOverrun (R74), an event word TICK is one TICK, done at once, and an overflow finds PEND and BUSY
clear. The second clause only says what `State.noOverrun` asks, the step-wise form of the assumption, which is the model's choice (log entry
14); that such an overflow, serviced, is one TICK is `ServicedOverflowIsOneTick`. -/
def Obligations.NoOverrunRunsTickWordsAndFindsNothingPending : Prop :=
  ∀ (s : State) (rest : List Input), s.noOverrun = true →
    (s.input = .ev 0b01#2 :: rest → step s = exec .tick { s with input := rest }) ∧
    (s.input = .overflow :: rest → s.pend = false ∧ s.busy = false)

/-- R87: a RESET in the middle of a TICK clears PEND and BUSY and abandons the TICK: nothing of it survives. That the rest of the service, where
it still stands in the schedule, does nothing is the model's choice (log entry 8), and that the record of reads is kept is log entry 18. -/
def Obligations.ResetAbandonsTheTickInProgress : Prop :=
  ∀ (s : State) (w : EventWord) (rest : List Input), w.getLsbD 1 = true →
    Sys2Proof.core.run 3 { s with input := .ev w :: .serviceSteps :: .serviceEnd :: rest } =
      .next { s with lfsr := 0#32, fc := 0#5, duty := 0#8, pend := false, service := .idle, input := rest }

/-- Around the steps of a TICK in progress, a DREAD before them returns the old value and one after them the new value; two reads with nothing
between them agree (R26). R29 says that a read then returns one of the two values and, once the new one, not the old again; which of them,
by the stage of the service, is the model's choice (log entry 6), and so is the record the reads stand in (log entry 9). -/
def Obligations.ComparatorReadsOldThenNew : Prop :=
  ∀ (s t : State) (rest : List Input), s.service = .begun → exec .tick { s with input := rest } = .next t →
    Sys2Proof.core.run 5
        { s with input := .dread :: .dread :: .serviceSteps :: .dread :: .dread :: rest } =
      .next { t with service := .stepped, dreads := t.duty :: t.duty :: s.duty :: s.duty :: s.dreads }

/-- Whatever the move, a step adds nothing to the record of reads, or adds the value DUTY then holds and changes no register (R26, R29). The
record is the model's choice (log entry 9). That a DREAD does add to it is `DreadReturnsDutyAndChangesNoRegister` and
`StepRunsTheDecodedOperation`. -/
def Obligations.StepRecordsNoReadOrTheValueHeld : Prop :=
  ∀ s t : State, step s = .next t →
    t.dreads = s.dreads ∨
    (t.dreads = s.duty :: s.dreads ∧ t.lfsr = s.lfsr ∧ t.fc = s.fc ∧ t.duty = s.duty ∧ t.pend = s.pend ∧
      t.service = s.service)

/-- R28: n event words TICK, from a state with nothing pending or in progress, are n TICKs: the registers after them are a function of the
registers before. -/
def Obligations.RunOfTickWordsIsThatManyTicks : Prop :=
  ∀ (n : Nat) (s : State) (rest : List Input), s.pend = false → s.service = .idle →
    Sys2Proof.core.run n { s with input := List.replicate n (.ev 0b01#2) ++ rest } =
      .next { s.ticks Config.params n with input := rest }

/-! ### Traces and the pin -/

/-- R40: the expansions of the pseudo-events. -/
def Obligations.PseudoEventsExpandToEventWords : Prop :=
  ∀ n : Nat,
    TraceLine.words (.tick n) = List.replicate n 0b01#2 ∧
    TraceLine.words (.hold n) = List.replicate n 0b00#2 ∧
    TraceLine.words (.period 1) = TraceLine.words (.tick 32) ∧
    TraceLine.words (.period n) = TraceLine.words (.tick (32 * n)) ∧
    ∀ (P : Config.Params) (s : State), (s.ticks P (32 * n)).fc = s.fc

/-- R39, R40: the event words of a trace without directives, put in as the schedule, do on the machine what its lines do on the bench. The
schedule is the model's (log entry 1), and so are the lines as terms after parsing (log entry 17). -/
def Obligations.TraceWordsRunAsTheBenchRuns : Prop :=
  ∀ (trace : List TraceLine) (s : State) (rest : List Input), trace.all TraceLine.isEvent = true →
    s.pend = false → s.service = .idle →
    Sys2Proof.core.run (traceWords trace).length { s with input := (traceWords trace).map Input.ev ++ rest } =
      .next { (benchRun ⟨Config.params, s, true⟩ trace).state with input := rest }

/-- R63, D9: whatever admissible function OnCount is: no count at the reset value, all 256 after a saturating load, and after any load at
least as many as at `0x0F`, the smallest loaded value (R65). -/
def Obligations.OnCountIsOffAtResetAndFullWhenSaturated : Prop :=
  ∀ onCount : Byte → Nat, Config.OnCountAdmissible onCount →
    onCount State.reset.dutyPort = 0 ∧
    (∀ s t : State, exec .dload s = .next t → s.lfsr.getLsbD 4 = true → onCount t.dutyPort = 256) ∧
    (∀ s t : State, exec .dload s = .next t → onCount 0x0F#8 ≤ onCount t.dutyPort ∧ onCount t.dutyPort ≤ 256)
end

