-- ==== Sys2Proof/Laws/State.lean ====
section
/-!
SUPPORT. What each write of the state leaves in each field: one lemma per field per update.
-/

namespace Sys2Proof.Machine

variable (s : State)

@[simp] theorem State.setLfsr_lfsr (v : LfsrWord) : (s.setLfsr v).lfsr = v := rfl
@[simp] theorem State.setLfsr_fc (v : LfsrWord) : (s.setLfsr v).fc = s.fc := rfl
@[simp] theorem State.setLfsr_duty (v : LfsrWord) : (s.setLfsr v).duty = s.duty := rfl
@[simp] theorem State.setLfsr_pend (v : LfsrWord) : (s.setLfsr v).pend = s.pend := rfl
@[simp] theorem State.setLfsr_service (v : LfsrWord) : (s.setLfsr v).service = s.service := rfl
@[simp] theorem State.setLfsr_dreads (v : LfsrWord) : (s.setLfsr v).dreads = s.dreads := rfl
@[simp] theorem State.setLfsr_input (v : LfsrWord) : (s.setLfsr v).input = s.input := rfl

@[simp] theorem State.setFc_lfsr (v : PhaseWord) : (s.setFc v).lfsr = s.lfsr := rfl
@[simp] theorem State.setFc_fc (v : PhaseWord) : (s.setFc v).fc = v := rfl
@[simp] theorem State.setFc_duty (v : PhaseWord) : (s.setFc v).duty = s.duty := rfl
@[simp] theorem State.setFc_pend (v : PhaseWord) : (s.setFc v).pend = s.pend := rfl
@[simp] theorem State.setFc_service (v : PhaseWord) : (s.setFc v).service = s.service := rfl
@[simp] theorem State.setFc_dreads (v : PhaseWord) : (s.setFc v).dreads = s.dreads := rfl
@[simp] theorem State.setFc_input (v : PhaseWord) : (s.setFc v).input = s.input := rfl

@[simp] theorem State.setDuty_lfsr (v : Byte) : (s.setDuty v).lfsr = s.lfsr := rfl
@[simp] theorem State.setDuty_fc (v : Byte) : (s.setDuty v).fc = s.fc := rfl
@[simp] theorem State.setDuty_duty (v : Byte) : (s.setDuty v).duty = v := rfl
@[simp] theorem State.setDuty_pend (v : Byte) : (s.setDuty v).pend = s.pend := rfl
@[simp] theorem State.setDuty_service (v : Byte) : (s.setDuty v).service = s.service := rfl
@[simp] theorem State.setDuty_dreads (v : Byte) : (s.setDuty v).dreads = s.dreads := rfl
@[simp] theorem State.setDuty_input (v : Byte) : (s.setDuty v).input = s.input := rfl

@[simp] theorem State.setPend_lfsr (b : Bool) : (s.setPend b).lfsr = s.lfsr := rfl
@[simp] theorem State.setPend_fc (b : Bool) : (s.setPend b).fc = s.fc := rfl
@[simp] theorem State.setPend_duty (b : Bool) : (s.setPend b).duty = s.duty := rfl
@[simp] theorem State.setPend_pend (b : Bool) : (s.setPend b).pend = b := rfl
@[simp] theorem State.setPend_service (b : Bool) : (s.setPend b).service = s.service := rfl
@[simp] theorem State.setPend_dreads (b : Bool) : (s.setPend b).dreads = s.dreads := rfl
@[simp] theorem State.setPend_input (b : Bool) : (s.setPend b).input = s.input := rfl

@[simp] theorem State.setService_lfsr (v : Service) : (s.setService v).lfsr = s.lfsr := rfl
@[simp] theorem State.setService_fc (v : Service) : (s.setService v).fc = s.fc := rfl
@[simp] theorem State.setService_duty (v : Service) : (s.setService v).duty = s.duty := rfl
@[simp] theorem State.setService_pend (v : Service) : (s.setService v).pend = s.pend := rfl
@[simp] theorem State.setService_service (v : Service) : (s.setService v).service = v := rfl
@[simp] theorem State.setService_dreads (v : Service) : (s.setService v).dreads = s.dreads := rfl
@[simp] theorem State.setService_input (v : Service) : (s.setService v).input = s.input := rfl

@[simp] theorem State.setInput_lfsr (l : List Input) : (s.setInput l).lfsr = s.lfsr := rfl
@[simp] theorem State.setInput_fc (l : List Input) : (s.setInput l).fc = s.fc := rfl
@[simp] theorem State.setInput_duty (l : List Input) : (s.setInput l).duty = s.duty := rfl
@[simp] theorem State.setInput_pend (l : List Input) : (s.setInput l).pend = s.pend := rfl
@[simp] theorem State.setInput_service (l : List Input) : (s.setInput l).service = s.service := rfl
@[simp] theorem State.setInput_dreads (l : List Input) : (s.setInput l).dreads = s.dreads := rfl
@[simp] theorem State.setInput_input (l : List Input) : (s.setInput l).input = l := rfl

@[simp] theorem State.recordDread_lfsr (v : Byte) : (s.recordDread v).lfsr = s.lfsr := rfl
@[simp] theorem State.recordDread_fc (v : Byte) : (s.recordDread v).fc = s.fc := rfl
@[simp] theorem State.recordDread_duty (v : Byte) : (s.recordDread v).duty = s.duty := rfl
@[simp] theorem State.recordDread_pend (v : Byte) : (s.recordDread v).pend = s.pend := rfl
@[simp] theorem State.recordDread_service (v : Byte) : (s.recordDread v).service = s.service := rfl
@[simp] theorem State.recordDread_dreads (v : Byte) : (s.recordDread v).dreads = v :: s.dreads := rfl
@[simp] theorem State.recordDread_input (v : Byte) : (s.recordDread v).input = s.input := rfl

@[simp] theorem State.zeroAll_lfsr : s.zeroAll.lfsr = 0#32 := rfl
@[simp] theorem State.zeroAll_fc : s.zeroAll.fc = 0#5 := rfl
@[simp] theorem State.zeroAll_duty : s.zeroAll.duty = 0#8 := rfl
@[simp] theorem State.zeroAll_pend : s.zeroAll.pend = false := rfl
@[simp] theorem State.zeroAll_service : s.zeroAll.service = .idle := rfl
@[simp] theorem State.zeroAll_dreads : s.zeroAll.dreads = s.dreads := rfl
@[simp] theorem State.zeroAll_input : s.zeroAll.input = s.input := rfl

end Sys2Proof.Machine
end

