-- ==== Sys2Proof/Laws/Ops.lean ====
section
/-!
SUPPORT. What each function and shared operation can do, said once: the provers cite these and unfold nothing.
-/

namespace Sys2Proof.Machine

/-! ### Functions on words -/

theorem lStep_of_odd {poly s : LfsrWord} (h : s.getLsbD 0 = true) : lStep poly s = s >>> 1 := if_pos h

theorem lStep_of_even {poly s : LfsrWord} (h : s.getLsbD 0 = false) : lStep poly s = (s >>> 1) ^^^ poly :=
  if_neg (by simpa [lsb] using h)

/-- The step in the spec's words (R50). -/
theorem lStep_eq (poly s : LfsrWord) :
    lStep poly s = if s.getLsbD 0 then s >>> 1 else (s >>> 1) ^^^ poly := rfl

theorem saturates_eq (b : Byte) : saturates b = b.getLsbD 4 := by
  revert b; decide +kernel

/-- The mapping in the spec's words (R59). -/
theorem dMap_eq (b : Byte) : dMap b = if b.getLsbD 4 then 0xFF#8 else (b &&& 0xF0#8) ||| 0x0F#8 := by
  revert b; decide +kernel

theorem dMap_legal (b : Byte) : dutyLegal (dMap b) = true := by
  revert b; decide +kernel

@[simp] theorem loadEn_iff (p : PhaseWord) : loadEn p = true ↔ p = 31#5 := by
  simp [loadEn, Config.refreshPhase]

@[simp] theorem atStart_iff (p : PhaseWord) : atStart p = true ↔ p = 0#5 := by
  simp [atStart]

theorem atCheckpoint_iff (p : PhaseWord) : atCheckpoint p = true ↔ p.extractLsb' 0 3 = 0#3 := by
  revert p; decide

/-- The advance condition in the spec's words (R52). -/
theorem advEn_iff (mask : Byte) (p : PhaseWord) (s : LfsrWord) :
    advEn mask p s = true ↔ p = 0#5 ∨ (p.extractLsb' 0 3 = 0#3 ∧ bad mask s = true) := by
  simp [advEn, atCheckpoint_iff]

theorem advEn_at_start (mask : Byte) (s : LfsrWord) : advEn mask 0#5 s = true := by
  simp [advEn_iff]

/-- No phase word both advances and loads (R36). -/
theorem advEn_at_refresh (mask : Byte) (s : LfsrWord) : advEn mask 31#5 s = false := by
  simp [advEn, atStart, show atCheckpoint 31#5 = false by decide]

theorem resampled_eq (P : Config.Params) (v : LfsrWord) :
    resampled P v = if bad P.badMask v then lStep P.poly v else v := rfl

theorem lStepN_succ (poly : LfsrWord) (k : Nat) (s : LfsrWord) :
    lStepN poly (k + 1) s = lStep poly (lStepN poly k s) := rfl

theorem OnOrbit.zero (poly : LfsrWord) : OnOrbit poly 0#32 := ⟨0, rfl⟩

theorem OnOrbit.step {poly v : LfsrWord} (h : OnOrbit poly v) : OnOrbit poly (lStep poly v) := by
  obtain ⟨k, rfl⟩ := h
  exact ⟨k + 1, rfl⟩

/-! ### Operations on the state -/

/-- A checkpoint writes LFSR, with the value it resamples to (R47). -/
theorem State.resample_eq (P : Config.Params) (s : State) :
    s.resample P = s.setLfsr (resampled P s.lfsr) := by
  unfold State.resample resampled
  split <;> rfl

/-- A step of the generator as one write (R50). -/
theorem State.stepLfsr_eq (P : Config.Params) (s : State) : s.stepLfsr P = s.setLfsr (lStep P.poly s.lfsr) := rfl

/-- A load of the latch as one write (R61). -/
theorem State.loadDuty_eq (s : State) : s.loadDuty = s.setDuty (dMap (lowByte s.lfsr)) := rfl

/-- The increment as one write (R44). -/
theorem State.incFc_eq (s : State) : s.incFc = s.setFc (s.fc + 1#5) := rfl

/-- A read of the latch (R62). -/
theorem State.readDuty_eq (s : State) : s.readDuty = s.recordDread s.duty := rfl

/-- An overflow as one write (R70). -/
theorem State.overflow_eq (s : State) : s.overflow = s.setPend true := rfl

/-- TICK as one write of each register (R41, "as a function on states"). -/
theorem State.tick_eq (P : Config.Params) (s : State) :
    s.tick P =
      { s with
        fc := phaseWord s.fc
        lfsr := if advEn P.badMask (phaseWord s.fc) s.lfsr then lStep P.poly s.lfsr else s.lfsr
        duty := if phaseWord s.fc = 31#5 then dMap (lowByte s.lfsr) else s.duty } := by
  unfold State.tick State.refresh State.advance State.incFc
  by_cases hl : phaseWord s.fc = 31#5
  · simp [hl, advEn_at_refresh, State.loadDuty, State.setDuty, State.setFc]
  · by_cases ha : advEn P.badMask (phaseWord s.fc) s.lfsr = true <;>
      simp [hl, ha, State.stepLfsr, State.setLfsr, State.setFc]

@[simp] theorem State.tick_fc (P : Config.Params) (s : State) : (s.tick P).fc = s.fc + 1#5 := by
  rw [State.tick_eq]; rfl

theorem State.tick_lfsr (P : Config.Params) (s : State) :
    (s.tick P).lfsr = if advEn P.badMask (s.fc + 1#5) s.lfsr then lStep P.poly s.lfsr else s.lfsr := by
  rw [State.tick_eq]; rfl

theorem State.tick_duty (P : Config.Params) (s : State) :
    (s.tick P).duty = if s.fc + 1#5 = 31#5 then dMap (lowByte s.lfsr) else s.duty := by
  rw [State.tick_eq]; rfl

@[simp] theorem State.tick_pend (P : Config.Params) (s : State) : (s.tick P).pend = s.pend := by
  rw [State.tick_eq]

@[simp] theorem State.tick_service (P : Config.Params) (s : State) : (s.tick P).service = s.service := by
  rw [State.tick_eq]

@[simp] theorem State.tick_dreads (P : Config.Params) (s : State) : (s.tick P).dreads = s.dreads := by
  rw [State.tick_eq]

@[simp] theorem State.tick_input (P : Config.Params) (s : State) : (s.tick P).input = s.input := by
  rw [State.tick_eq]

/-- An idle TICK moves FC only (R49). -/
theorem State.tick_of_idle {P : Config.Params} {s : State} (h0 : (s.fc + 1#5).extractLsb' 0 3 ≠ 0#3)
    (h31 : s.fc + 1#5 ≠ 31#5) : s.tick P = s.setFc (s.fc + 1#5) := by
  have hne : s.fc + 1#5 ≠ 0#5 := fun h => h0 (by rw [h]; rfl)
  have ha : advEn P.badMask (s.fc + 1#5) s.lfsr = false := by
    rw [Bool.eq_false_iff, ne_eq, advEn_iff]
    tauto
  rw [State.tick_eq]
  simp [ha, h31, State.setFc, phaseWord]

theorem State.ticks_succ (P : Config.Params) (n : Nat) (s : State) :
    s.ticks P (n + 1) = (s.tick P).ticks P n := rfl

/-- Runs of ticks compose (R28). -/
theorem State.ticks_add (P : Config.Params) (m n : Nat) (s : State) :
    s.ticks P (m + n) = (s.ticks P m).ticks P n := by
  induction m generalizing s with
  | zero => simp [State.ticks]
  | succ m ih => rw [Nat.succ_add, State.ticks_succ, State.ticks_succ, ih]

/-- The last of a run of ticks (R28). -/
theorem State.ticks_last (P : Config.Params) (n : Nat) (s : State) :
    s.ticks P (n + 1) = (s.ticks P n).tick P := by
  rw [State.ticks_add]; rfl

theorem State.busy_eq_false {s : State} : s.busy = false ↔ s.service = .idle := by
  simp [State.busy]

theorem State.quiet_iff {s : State} : s.quiet = true ↔ s.pend = false ∧ s.service = .idle := by
  simp [State.quiet, State.busy_eq_false]

/-- The entry (R70): it happens where it is enabled, and else nothing does. -/
theorem State.beginService_cases (s : State) :
    (s.pend = true ∧ s.service = .idle ∧ s.beginService = { s with pend := false, service := .begun }) ∨
    ((s.pend = false ∨ s.service ≠ .idle) ∧ s.beginService = s) := by
  unfold State.beginService
  by_cases hp : s.pend = true <;> by_cases hs : s.service = .idle <;>
    simp [State.busy, hp, hs, State.setPend, State.setService]

/-- The steps of the service (R70): those of TICK, once. -/
theorem State.stepService_cases (P : Config.Params) (s : State) :
    (s.service = .begun ∧ s.stepService P = { s.tick P with service := .stepped }) ∨
    (s.service ≠ .begun ∧ s.stepService P = s) := by
  unfold State.stepService
  by_cases hs : s.service = .begun <;> simp [hs, State.setService]

/-- The return (R70). -/
theorem State.endService_cases (s : State) :
    (s.service = .stepped ∧ s.endService = { s with service := .idle }) ∨
    (s.service ≠ .stepped ∧ s.endService = s) := by
  unfold State.endService
  by_cases hs : s.service = .stepped <;> simp [hs, State.setService]

end Sys2Proof.Machine
end

