-- ==== Sys2Proof/Laws/PerInstr.lean ====
section
/-!
SUPPORT. A statement for every instruction as syntax, with one lemma per constructor.
-/

namespace Sys2Proof.Laws.EncodedWordFits

/-- The encoding of an operation that has one is a well-formed word, of a row whose mnemonic is the operation's (R34, R35, R36); an
operation without one has the empty word of format NONE. -/
def Statement (i : Instr) : Prop :=
  (i.hasEncoding = true → (encode i).wellFormed = true ∧
    ((opcodeRows.filter (fun r => r.accepts (encode i))).map TableRow.mnemonic = [i.mnemonic])) ∧
  (i.hasEncoding = false → encode i = ⟨.unencoded, 0⟩)

theorem reset (b : BitVec 1) : Statement (.reset b) := by
  unfold Statement
  revert b
  decide
theorem tick : Statement .tick := by
  unfold Statement
  decide
theorem hold : Statement .hold := by
  unfold Statement
  decide
theorem phStart : Statement .phStart := by
  unfold Statement
  decide
theorem phCheck08 : Statement .phCheck08 := by
  unfold Statement
  decide
theorem phCheck10 : Statement .phCheck10 := by
  unfold Statement
  decide
theorem phCheck18 : Statement .phCheck18 := by
  unfold Statement
  decide
theorem phEnd : Statement .phEnd := by
  unfold Statement
  decide
theorem phIdleLow1 (hi : BitVec 2) : Statement (.phIdleLow1 hi) := by
  unfold Statement
  revert hi
  decide
theorem phIdleLow2 (hi : BitVec 2) : Statement (.phIdleLow2 hi) := by
  unfold Statement
  revert hi
  decide
theorem phIdleLow3 (hi : BitVec 2) : Statement (.phIdleLow3 hi) := by
  unfold Statement
  revert hi
  decide
theorem phIdleLow4 (hi : BitVec 2) : Statement (.phIdleLow4 hi) := by
  unfold Statement
  revert hi
  decide
theorem phIdleLow5 (hi : BitVec 2) : Statement (.phIdleLow5 hi) := by
  unfold Statement
  revert hi
  decide
theorem phIdleLow6 (hi : BitVec 2) : Statement (.phIdleLow6 hi) := by
  unfold Statement
  revert hi
  decide
theorem phIdle07 : Statement .phIdle07 := by
  unfold Statement
  decide
theorem phIdle0F : Statement .phIdle0F := by
  unfold Statement
  decide
theorem phIdle17 : Statement .phIdle17 := by
  unfold Statement
  decide
theorem nop : Statement .nop := by
  unfold Statement
  decide
theorem lstep : Statement .lstep := by
  unfold Statement
  decide
theorem dload : Statement .dload := by
  unfold Statement
  decide
theorem lstepDload : Statement .lstepDload := by
  unfold Statement
  decide
theorem fcinc : Statement .fcinc := by
  unfold Statement
  decide
theorem dread : Statement .dread := by
  unfold Statement
  decide

end Sys2Proof.Laws.EncodedWordFits
end

