-- ==== Sys2Proof/Laws/Step.lean ====
section
/-!
SUPPORT. What each operation answers, as one equation over the shared operations, and what a step does with each kind of move.
-/

namespace Sys2Proof.Machine

@[simp] theorem exec_reset (b : BitVec 1) (s : State) : exec (.reset b) s = .next s.zeroAll := rfl
@[simp] theorem exec_tick (s : State) : exec .tick s = .next (s.tick Config.params) := rfl
@[simp] theorem exec_hold (s : State) : exec .hold s = .next s := rfl
@[simp] theorem exec_phStart (s : State) : exec .phStart s = .next (s.stepLfsr Config.params) := rfl
@[simp] theorem exec_phCheck08 (s : State) : exec .phCheck08 s = .next (s.resample Config.params) := rfl
@[simp] theorem exec_phCheck10 (s : State) : exec .phCheck10 s = .next (s.resample Config.params) := rfl
@[simp] theorem exec_phCheck18 (s : State) : exec .phCheck18 s = .next (s.resample Config.params) := rfl
@[simp] theorem exec_phEnd (s : State) : exec .phEnd s = .next s.loadDuty := rfl
@[simp] theorem exec_phIdleLow1 (hi : BitVec 2) (s : State) : exec (.phIdleLow1 hi) s = .next s := rfl
@[simp] theorem exec_phIdleLow2 (hi : BitVec 2) (s : State) : exec (.phIdleLow2 hi) s = .next s := rfl
@[simp] theorem exec_phIdleLow3 (hi : BitVec 2) (s : State) : exec (.phIdleLow3 hi) s = .next s := rfl
@[simp] theorem exec_phIdleLow4 (hi : BitVec 2) (s : State) : exec (.phIdleLow4 hi) s = .next s := rfl
@[simp] theorem exec_phIdleLow5 (hi : BitVec 2) (s : State) : exec (.phIdleLow5 hi) s = .next s := rfl
@[simp] theorem exec_phIdleLow6 (hi : BitVec 2) (s : State) : exec (.phIdleLow6 hi) s = .next s := rfl
@[simp] theorem exec_phIdle07 (s : State) : exec .phIdle07 s = .next s := rfl
@[simp] theorem exec_phIdle0F (s : State) : exec .phIdle0F s = .next s := rfl
@[simp] theorem exec_phIdle17 (s : State) : exec .phIdle17 s = .next s := rfl
@[simp] theorem exec_nop (s : State) : exec .nop s = .next s := rfl
@[simp] theorem exec_lstep (s : State) : exec .lstep s = .next (s.stepLfsr Config.params) := rfl
@[simp] theorem exec_dload (s : State) : exec .dload s = .next s.loadDuty := rfl
@[simp] theorem exec_lstepDload (s : State) : exec .lstepDload s = .next ((s.stepLfsr Config.params).loadDuty) := rfl
@[simp] theorem exec_fcinc (s : State) : exec .fcinc s = .next s.incFc := rfl
@[simp] theorem exec_dread (s : State) : exec .dread s = .next s.readDuty := rfl

theorem step_of_nil {s : State} (h : s.input = []) : step s = .next s := by
  simp [step, h]

theorem step_of_cons {s : State} {m : Input} {rest : List Input} (h : s.input = m :: rest) :
    step s = perform (select m s) (s.setInput rest) := by
  simp [step, h]

/-- An event word other than TICK, or a TICK with nothing pending or in progress, is run (R34, R72). -/
theorem deliver_run {i : Instr} {s : State} (h : i ≠ .tick ∨ s.quiet = true) : deliver i s = .run i := by
  unfold deliver
  rcases h with h | h <;> simp [h]

/-- A TICK that finds one pending or in progress is an overflow (R72, R74). -/
theorem deliver_tick_busy {s : State} (h : s.quiet = false) : deliver .tick s = .overflow := by
  simp [deliver, h]

end Sys2Proof.Machine
end

