-- ==== Sys2Proof/Tests/Slice0.lean ====
section
/-!
SUPPORT. Tests: words written out from the spec's tables, one-step vectors from spec/95_test_vectors.md, ill-formed terms the checks refuse,
and for each statement with hypotheses a witness that meets them.
-/

namespace Sys2Proof.Tests

open Sys2Proof.Machine

/-! ### Each constructor's word, written out from R34, R35, R36 -/

theorem test_decode_reset : decode ⟨.ev, 0b10⟩ = .ok (.reset 0#1) := by rfl
theorem test_decode_reset_with_tick : decode ⟨.ev, 0b11⟩ = .ok (.reset 1#1) := by rfl
theorem test_decode_tick : decode ⟨.ev, 0b01⟩ = .ok .tick := by rfl
theorem test_decode_hold : decode ⟨.ev, 0b00⟩ = .ok .hold := by rfl
theorem test_decode_phStart : decode ⟨.ph, 0b00000⟩ = .ok .phStart := by rfl
theorem test_decode_phCheck08 : decode ⟨.ph, 0b01000⟩ = .ok .phCheck08 := by rfl
theorem test_decode_phCheck10 : decode ⟨.ph, 0b10000⟩ = .ok .phCheck10 := by rfl
theorem test_decode_phCheck18 : decode ⟨.ph, 0b11000⟩ = .ok .phCheck18 := by rfl
theorem test_decode_phEnd : decode ⟨.ph, 0b11111⟩ = .ok .phEnd := by rfl
theorem test_decode_phIdleLow1 : decode ⟨.ph, 0b01001⟩ = .ok (.phIdleLow1 1#2) := by rfl
theorem test_decode_phIdleLow2 : decode ⟨.ph, 0b10010⟩ = .ok (.phIdleLow2 2#2) := by rfl
theorem test_decode_phIdleLow3 : decode ⟨.ph, 0b11011⟩ = .ok (.phIdleLow3 3#2) := by rfl
theorem test_decode_phIdleLow4 : decode ⟨.ph, 0b00100⟩ = .ok (.phIdleLow4 0#2) := by rfl
theorem test_decode_phIdleLow5 : decode ⟨.ph, 0b01101⟩ = .ok (.phIdleLow5 1#2) := by rfl
theorem test_decode_phIdleLow6 : decode ⟨.ph, 0b11110⟩ = .ok (.phIdleLow6 3#2) := by rfl
theorem test_decode_phIdle07 : decode ⟨.ph, 0b00111⟩ = .ok .phIdle07 := by rfl
theorem test_decode_phIdle0F : decode ⟨.ph, 0b01111⟩ = .ok .phIdle0F := by rfl
theorem test_decode_phIdle17 : decode ⟨.ph, 0b10111⟩ = .ok .phIdle17 := by rfl
theorem test_decode_nop : decode ⟨.cw, 0b00⟩ = .ok .nop := by rfl
theorem test_decode_lstep : decode ⟨.cw, 0b10⟩ = .ok .lstep := by rfl
theorem test_decode_dload : decode ⟨.cw, 0b01⟩ = .ok .dload := by rfl
theorem test_decode_lstepDload : decode ⟨.cw, 0b11⟩ = .ok .lstepDload := by rfl

/-- FCINC and DREAD have no word (R33): the format NONE is not decoded. -/
theorem test_encode_fcinc_is_no_word : decode (encode .fcinc) = .error .noEncoding := by rfl
theorem test_encode_dread_is_no_word : decode (encode .dread) = .error .noEncoding := by rfl

/-! ### Ill-formed terms, one for each check -/

theorem test_too_wide_event_word_refused : RawWord.wellFormed ⟨.ev, 4⟩ = false := by decide
theorem test_too_wide_phase_word_refused : RawWord.wellFormed ⟨.ph, 32⟩ = false := by decide
theorem test_too_wide_control_word_refused : decode ⟨.cw, 4⟩ = .error (.tooWide .cw 4) := by rfl
theorem test_word_of_no_format_refused : RawWord.wellFormed ⟨.unencoded, 0⟩ = false := by decide
theorem test_fcinc_has_no_encoding : Instr.hasEncoding .fcinc = false := by decide
theorem test_trace_count_zero_refused : TraceLine.wellFormed (.tick 0) = false := by decide
theorem test_trace_period_zero_refused : TraceLine.wellFormed (.period 0) = false := by decide
theorem test_trace_hold_zero_refused : TraceLine.wellFormed (.hold 0) = false := by decide
theorem test_trace_zero_poly_refused : TraceLine.wellFormed (.param .poly 0) = false := by decide
theorem test_trace_other_mask_refused : TraceLine.wellFormed (.param .badMask 0x10) = false := by decide
theorem test_trace_wide_state_refused : TraceLine.wellFormed (.state 0 32 0) = false := by decide
theorem test_trace_empty_expect_refused : TraceLine.wellFormed (.expect []) = false := by decide
theorem test_trace_wide_dread_refused : TraceLine.wellFormed (.dread 256) = false := by decide
theorem test_trace_late_param_refused : traceWellFormed [.reset, .param .badMask 0x18] = false := by decide
/-- The opening of P2 of spec/95_test_vectors.md is a trace the syntax allows. -/
theorem test_trace_p2_accepted :
    traceWellFormed [.param .poly 0xB8, .param .badMask 0x18, .reset, .tick 96, .expect [(.lfsr, 0x6E), (.fc, 0)]] = true := by
  decide

/-! ### Vectors -/

/-- A state with the given registers, and nothing else going on. -/
def st (lfsr : LfsrWord) (fc : PhaseWord) (duty : Byte) : State :=
  ((State.reset.setLfsr lfsr).setFc fc).setDuty duty

/-- BYTE of spec/95_test_vectors.md, with each mask. -/
def byte18 : Config.Params := { poly := 0xB8#32, poly_ne_zero := by decide, mask := .mask18 }
def byte0C : Config.Params := { poly := 0xB8#32, poly_ne_zero := by decide, mask := .mask0C }

/-- Section 2.5: RESET from a running state. -/
theorem test_reset : exec (.reset 1#1) (st 0x3FFFF8AC#32 17#5 0xAF#8) = .next (st 0#32 0#5 0#8) := by rfl
/-- Section 2.5: PH_CHECK with a value bad under `0x18`. -/
theorem test_tick_bad_value : (st 0x87#32 7#5 0x0F#8).tick byte18 = st 0x43#32 8#5 0x0F#8 := by decide
/-- Section 2.5: the same value is good under `0x0C`. -/
theorem test_tick_good_value : (st 0x87#32 7#5 0x0F#8).tick byte0C = st 0x87#32 8#5 0x0F#8 := by decide
/-- Section 2.5 (S8): PH_END, saturating. -/
theorem test_tick_end : (st 0xDEADBE1F#32 30#5 0x0F#8).tick byte18 = st 0xDEADBE1F#32 31#5 0xFF#8 := by decide
/-- Section 2.5: FC wraps 31 to 0, and DUTY is untouched at phase word 0 (conflict C1). -/
theorem test_tick_wraps : (st 0xFFFFFFFF#32 31#5 0#8).tick byte18 = st 0x7FFFFFFF#32 0#5 0#8 := by decide
/-- Section 2.3: 12 is a multiple of 4 but no checkpoint. -/
theorem test_tick_twelve_is_idle : (st 0#32 11#5 0x0F#8).tick byte18 = st 0#32 12#5 0x0F#8 := by decide
/-- Section 2.5: HOLD changes nothing. -/
theorem test_hold : exec .hold (st 0x60000D0F#32 5#5 0xAF#8) = .next (st 0x60000D0F#32 5#5 0xAF#8) := by rfl
/-- R46: an odd value is shifted. -/
theorem test_phStart : exec .phStart (st 0x7FFFF159#32 0#5 0xFF#8) = .next (st 0x3FFFF8AC#32 0#5 0xFF#8) := by rfl
/-- Section 2.2: an even value takes POLY. -/
theorem test_phStart_even : (st 0x3FFFF8AC#32 0#5 0#8).stepLfsr byte18 = st 0x1FFFFCEE#32 0#5 0#8 := by decide
/-- Section 2.5: a value good under `0x18` and bad under `0x0C`. -/
theorem test_phCheck_good : (st 0x10#32 16#5 0x0F#8).resample byte18 = st 0x10#32 16#5 0x0F#8 := by decide
theorem test_phCheck_bad : (st 0x10#32 16#5 0x0F#8).resample byte0C = st 0xB0#32 16#5 0x0F#8 := by decide
/-- Section 2.4: a load uses only the low byte. -/
theorem test_phEnd : exec .phEnd (st 0x12345687#32 31#5 0#8) = .next (st 0x12345687#32 31#5 0x8F#8) := by rfl
/-- R49: an idle phase writes nothing. -/
theorem test_phIdle : exec (.phIdleLow4 1#2) (st 0x60000D0F#32 12#5 0xAF#8) = .next (st 0x60000D0F#32 12#5 0xAF#8) := by rfl
/-- R36. -/
theorem test_nop : exec .nop (st 1#32 0#5 0x0F#8) = .next (st 1#32 0#5 0x0F#8) := by rfl
/-- Section 2.2: the seed is reached from 1. -/
theorem test_lstep : exec .lstep (st 1#32 0#5 0#8) = .next (st 0#32 0#5 0#8) := by rfl
/-- R61. -/
theorem test_dload : exec .dload (st 0x3FFFF8AC#32 0#5 0#8) = .next (st 0x3FFFF8AC#32 0#5 0xAF#8) := by rfl
/-- R36: the load takes the stepped value: `0x43` from `0x87`. -/
theorem test_lstepDload : exec .lstepDload (st 0x87#32 0#5 0#8) = .next (st 0x43#32 0#5 0x4F#8) := by rfl
/-- Section 2.1. -/
theorem test_fcinc : exec .fcinc (st 0#32 31#5 0#8) = .next (st 0#32 0#5 0#8) := by rfl
/-- Section 2.4: DREAD returns DUTY. -/
theorem test_dread : exec .dread (st 9#32 3#5 0xAF#8) = .next ((st 9#32 3#5 0xAF#8).recordDread 0xAF#8) := by rfl

/-- Section 2.5, the finer model: an overflow, then a second one that finds PEND set. -/
theorem test_second_overflow_lost : (State.reset.overflow).overflow = State.reset.setPend true := by decide
theorem test_service_begins : (State.reset.overflow).beginService = State.reset.setService .begun := by decide
theorem test_service_steps :
    ((State.reset.overflow).beginService).stepService byte18 = (st 0#32 1#5 0#8).setService .stepped := by decide
/-- Section 2.1: the event word `0b11` is a reset. -/
theorem test_step_reset_wins : step ((st 0x87#32 7#5 0x0F#8).setInput [.ev 0b11#2]) = .next State.reset := by rfl
/-- A table word placed as the next move is run by the next step. -/
theorem test_fetch_word_runs : step (State.reset.withFetchWord 8 0x1F) = .next (State.reset.setDuty 0x0F#8) := by rfl
theorem test_table_word_tick : decodeTableWord 8 1 = some .tick := by decide
theorem test_table_word_check : decodeTableWord 8 0x10 = some .phCheck10 := by decide
/-- P4b of spec/95_test_vectors.md on the bench: one tick. -/
theorem test_trace_p4b :
    (benchRun ⟨byte18, State.reset, true⟩
      [.state 0 30 0xFF, .tick 1, .expect [(.lfsr, 0), (.fc, 31), (.duty, 0x0F)], .dread 0x0F]).passed = true := by
  decide
/-- An expectation that is not met is seen. -/
theorem test_trace_fails : (benchRun ⟨byte18, State.reset, true⟩ [.tick 1, .expect [(.fc, 0)]]).passed = false := by
  decide

/-! ### Witnesses for the hypotheses of the statements -/

theorem witness_EncodeThenDecodeIsIdentity : Instr.hasEncoding (.phIdleLow6 3#2) = true := by decide
theorem witness_DecodeThenEncodeIsIdentity : decode ⟨.ph, 31⟩ = .ok .phEnd := by rfl
theorem witness_EveryWordOfAFormatDecodes : RawWord.wellFormed ⟨.cw, 3⟩ = true ∧ decode ⟨.cw, 3⟩ = .ok .lstepDload := ⟨by decide, rfl⟩
theorem witness_ExactlyOneTableRowAcceptsAWord : decode ⟨.ev, 3⟩ = .ok (.reset 1#1) := by rfl
theorem witness_EventWordsDecodeAndResetWins : 0b11#2 &&& 0b10#2 = 0b10#2 := by decide
theorem witness_PhCheckResamplesABadValueOnce :
    (∃ i : Instr, i = .phCheck08) ∧ (∃ i : Instr, i = .phCheck10) ∧ ∃ i : Instr, i = .phCheck18 := ⟨⟨_, rfl⟩, ⟨_, rfl⟩, ⟨_, rfl⟩⟩
/-- 1 and 30 are the ends of the range, 7 and 9 the neighbours of a checkpoint. -/
theorem witness_PhIdleWritesNothing :
    ∀ p ∈ [1#5, 7#5, 9#5, 30#5], p.extractLsb' 0 3 ≠ 0#3 ∧ p ≠ 31#5 := by decide
theorem witness_PhIdleWritesNothing_constructors :
    ∃ (i : Instr) (hi : BitVec 2), i = .phIdleLow1 hi ∨ i = .phIdle17 := ⟨.phIdle17, 0#2, .inr rfl⟩
theorem witness_LStepShiftsAndFeedsBackOnZero :
    (0xFFFFFFFF#32).getLsbD 0 = true ∧ (0xFFFFFFFE#32).getLsbD 0 = false := by decide
theorem witness_GoodnessTestReadsTwoBits : (0xFFFFFF00#32).extractLsb' 0 8 = (0#32).extractLsb' 0 8 := by decide
theorem witness_AdvanceConditionTruthTable :
    ∀ p ∈ [1#5, 7#5, 9#5, 23#5, 25#5, 31#5], p ≠ 0#5 ∧ p ≠ 8#5 ∧ p ≠ 16#5 ∧ p ≠ 24#5 := by decide
theorem witness_DutyMapTakesNineValues :
    (0x10#8).getLsbD 4 = true ∧ (0x0F#8).getLsbD 4 = false ∧ (0x20#8).extractLsb' 4 4 = (0x2F#8).extractLsb' 4 4 := by decide

/-- POLY = 5 of spec/95_test_vectors.md (SMALL): the highest set bit is bit 2, and 7 is the largest value of its space. -/
theorem witness_highestBit_small : HighestBit 5#32 2 ∧ (7#32).toNat < 2 ^ (2 + 1) := by
  unfold HighestBit
  decide
theorem witness_StepSpaceIsClosedAndEntered : HighestBit 5#32 2 ∧ (7#32).toNat < 2 ^ (2 + 1) := witness_highestBit_small
theorem witness_StepIsABijectionOnItsSpace : HighestBit 5#32 2 ∧ (7#32).toNat < 2 ^ (2 + 1) := witness_highestBit_small
/-- POLY with bit 31 set: the space is everything. -/
theorem witness_SeedSequenceReturnsToZero : HighestBit 5#32 2 ∧ HighestBit 0x80000000#32 31 := by
  unfold HighestBit
  decide
/-- SMALL's fixed point is 6; POLY = 1 has none to find (an odd number of bits). -/
theorem witness_FixedPointExactlyWhenSetBitCountIsEven :
    lStep 5#32 6#32 = 6#32 ∧ setBitsFrom 5#32 0 % 2 = 0 ∧ setBitsFrom 1#32 0 % 2 = 1 := by decide
/-- SMALL's sequence comes to 7 in four steps. -/
theorem witness_SeedSequenceNeverSettles :
    ∃ P : Config.Params, P.poly = 5#32 ∧ OnOrbit P.poly 7#32 :=
  ⟨{ poly := 5#32, poly_ne_zero := by decide, mask := .mask18 }, rfl, 4, by decide⟩

theorem witness_TickIsIncrementThenPhaseOperation : exec .fcinc State.reset = .next (State.reset.setFc 1#5) := by rfl
theorem witness_NoTickChangesBothLfsrAndDuty : exec .tick (st 8#32 31#5 0#8) = .next ((st 8#32 31#5 0#8).tick Config.params) := by rfl
theorem witness_PeriodLoadsTheResampledValue : (st 0x87#32 31#5 0x0F#8).fc = 31#5 := by decide
/-- The shortest and the longest stretch. -/
theorem witness_DutyHoldsBetweenLoads : (st 0x87#32 31#5 0x0F#8).fc = 31#5 ∧ 0 < 32 ∧ 31 < 32 := by decide
/-- The values where the clauses of the timeline meet. -/
theorem witness_FirstPeriodAfterReset : ∀ n ∈ [0, 7, 8, 15, 16, 23, 24, 30, 31, 32], n ≤ 32 := by decide

theorem witness_OnlyAStepOrResetWritesLfsr : exec .lstep (st 3#32 0#5 0#8) = .next (st 1#32 0#5 0#8) := by rfl
theorem witness_OnlyAnIncrementOrResetMovesFc :
    exec .fcinc (st 3#32 8#5 0#8) = .next (st 3#32 9#5 0#8) ∧ exec (.reset 0#1) (st 3#32 8#5 1#8) = .next (st 0#32 0#5 0#8) ∧
    exec .nop (st 3#32 8#5 0#8) = .next (st 3#32 8#5 0#8) := ⟨rfl, rfl, rfl⟩
theorem witness_OnlyALoadOrResetWritesDuty : exec .dload (st 0x10#32 0#5 0#8) = .next (st 0x10#32 0#5 0xFF#8) := by rfl
theorem witness_DutyNeverFeedsBackIntoTheGenerator :
    (st 3#32 4#5 0#8).lfsr = (st 3#32 4#5 0xFF#8).lfsr ∧ (st 3#32 4#5 0#8).fc = (st 3#32 4#5 0xFF#8).fc ∧
    exec .lstep (st 3#32 4#5 0#8) = .next (st 1#32 4#5 0#8) ∧ exec .lstep (st 3#32 4#5 0xFF#8) = .next (st 1#32 4#5 0xFF#8) :=
  ⟨rfl, rfl, rfl, rfl⟩
/-- A state after one load and one step, about to read the latch. -/
theorem witness_EveryStepKeepsTheInvariant :
    ((st (lStep Config.params.poly 0#32) 8#5 0x6F#8).setInput [.dread]).Inv ∧
    step ((st (lStep Config.params.poly 0#32) 8#5 0x6F#8).setInput [.dread]) =
      .next ((st (lStep Config.params.poly 0#32) 8#5 0x6F#8).recordDread 0x6F#8) :=
  ⟨⟨by decide, 1, rfl⟩, rfl⟩
theorem witness_EveryResetStartsTheSameSequence :
    exec (.reset 0#1) (st 3#32 4#5 5#8) = .next State.reset ∧ exec (.reset 1#1) (st 7#32 8#5 9#8) = .next State.reset := ⟨rfl, rfl⟩

theorem witness_StepRunsTheDecodedOperation :
    (State.reset.setInput [.ev 0b01#2]).input = .ev 0b01#2 :: [] ∧ State.reset.pend = false ∧ State.reset.service = .idle ∧
    decodeEv 0b10#2 ≠ .tick ∧ (State.reset.setInput [.ph 31#5]).input = .ph 31#5 :: [] ∧
    (State.reset.setInput [.cw 3#2]).input = .cw 3#2 :: [] ∧ (State.reset.setInput [.fcinc]).input = .fcinc :: [] ∧
    (State.reset.setInput [.dread]).input = .dread :: [] := by decide
theorem witness_StepWithNoMoveHolds : (st 3#32 4#5 5#8).input = [] := by decide
theorem witness_TickDuringServiceOnlyPends :
    ((State.reset.setPend true).setInput [.ev 0b01#2]).pend = true ∧
    ((State.reset.setService .begun).setInput [.ev 0b01#2]).service ≠ .idle ∧
    ((State.reset.setService .begun).setInput [.ev 0b01#2]).input = .ev 0b01#2 :: [] := by decide
theorem witness_DeliveryMovesFollowTheFinerModel :
    ((State.reset.setPend true).setInput [.serviceBegin]).pend = true ∧ State.reset.service = .idle ∧ State.reset.pend = false ∧
    (State.reset.setService .begun).service = .begun ∧ (State.reset.setService .stepped).service = .stepped ∧
    exec .tick State.reset = .next (State.reset.tick Config.params) := ⟨rfl, rfl, rfl, rfl, rfl, rfl⟩
theorem witness_ServicedOverflowIsOneTick : (st 3#32 31#5 5#8).pend = false ∧ (st 3#32 31#5 5#8).service = .idle := by decide
theorem witness_NoOverflowIsServicedTwiceAndLossNeedsPend :
    (State.reset.setInput [.overflow]).input = .overflow :: [] ∧ Input.isRunning .overflow = true ∧
    Input.isOverflow .overflow = true ∧ State.reset.pend = false ∧ (State.reset.setPend true).pend = true ∧
    Input.isOverflow .serviceBegin = false ∧ step (State.reset.setInput [.overflow]) = .next (State.reset.setPend true) :=
  ⟨rfl, rfl, rfl, rfl, rfl, rfl, rfl⟩
theorem witness_NoOverrunRunsTickWordsAndFindsNothingPending :
    (State.reset.setInput [.ev 0b01#2]).noOverrun = true ∧ (State.reset.setInput [.overflow]).noOverrun = true := by decide
theorem witness_ResetAbandonsTheTickInProgress : (0b10#2).getLsbD 1 = true ∧ (0b11#2).getLsbD 1 = true := by decide
theorem witness_ComparatorReadsOldThenNew :
    (State.reset.setService .begun).service = .begun ∧
    exec .tick (State.reset.setService .begun) = .next ((State.reset.setService .begun).tick Config.params) := ⟨rfl, rfl⟩
theorem witness_StepRecordsNoReadOrTheValueHeld :
    step ((st 3#32 4#5 5#8).setInput [.dread]) = .next ((st 3#32 4#5 5#8).recordDread 5#8) := by rfl
theorem witness_RunOfTickWordsIsThatManyTicks : State.reset.pend = false ∧ State.reset.service = .idle := by decide
theorem witness_TraceWordsRunAsTheBenchRuns :
    [TraceLine.reset, .tick 40, .hold 5, .period 1].all TraceLine.isEvent = true ∧ State.reset.pend = false ∧
    State.reset.service = .idle := by decide
/-- An admissible OnCount: the value itself, and one more at the top. -/
theorem witness_OnCountIsOffAtResetAndFullWhenSaturated :
    Config.OnCountAdmissible (fun d => if d = 0xFF#8 then 256 else d.toNat) where
  off := by decide
  full := by decide
  monotone := by
    intro a b h
    have ha := a.isLt
    have hb := b.isLt
    have hab : a.toNat ≤ b.toNat := h
    by_cases h1 : a = 0xFF#8 <;> by_cases h2 : b = 0xFF#8
    · simp [h1, h2]
    · exact absurd (BitVec.eq_of_toNat_eq (by have := congrArg BitVec.toNat h1; simp at this ⊢; omega)) h2
    · simp only [h1, h2, if_true, if_false]
      omega
    · simpa only [h1, h2, if_false] using hab

end Sys2Proof.Tests
end

/-! ## Which operation on the state an instruction is -/

section

namespace Sys2Proof.Machine

/-- What an operation of the table can do to the state (R33, R68): the shared operations on the state, and which instructions are which.
The case `keeps` covers HOLD, NOP and the idle phase words. -/
inductive ExecEffect (s : State) : Instr → State → Prop where
  | resets (b : BitVec 1) : ExecEffect s (.reset b) s.zeroAll
  | ticks : ExecEffect s .tick (s.tick Config.params)
  | increments : ExecEffect s .fcinc s.incFc
  | reads : ExecEffect s .dread s.readDuty
  | steps {i : Instr} (hi : i ∈ [Instr.phStart, .lstep]) : ExecEffect s i (s.stepLfsr Config.params)
  | resamples {i : Instr} (hi : i ∈ [Instr.phCheck08, .phCheck10, .phCheck18]) : ExecEffect s i (s.resample Config.params)
  | loads {i : Instr} (hi : i ∈ [Instr.phEnd, .dload]) : ExecEffect s i s.loadDuty
  | stepsAndLoads : ExecEffect s .lstepDload (s.stepLfsr Config.params).loadDuty
  | keeps {i : Instr} (hi : exec i s = .next s) : ExecEffect s i s

theorem execEffect_of_exec {i : Instr} {s t : State} (h : exec i s = .next t) : ExecEffect s i t := by
  cases i with
  | reset b => cases h; exact .resets b
  | tick => cases h; exact .ticks
  | fcinc => cases h; exact .increments
  | dread => cases h; exact .reads
  | phStart | lstep => cases h; exact .steps (by simp)
  | phCheck08 | phCheck10 | phCheck18 => cases h; exact .resamples (by simp)
  | phEnd | dload => cases h; exact .loads (by simp)
  | lstepDload => cases h; exact .stepsAndLoads
  | _ => cases h; exact .keeps rfl

end Sys2Proof.Machine

end

/-! ## The invariant: DUTY is legal and LFSR is on the seed's sequence (R20, R55, R65) -/

section

namespace Sys2Proof.Machine

theorem dutyLegal_zero : dutyLegal 0#8 = true := by decide

namespace State.Inv

variable {s t : State}

/-- The invariant reads DUTY and LFSR alone. -/
theorem of_eq (h : s.Inv) (hduty : t.duty = s.duty) (hlfsr : t.lfsr = s.lfsr) : t.Inv where
  duty_legal := hduty ▸ h.duty_legal
  on_orbit := hlfsr ▸ h.on_orbit

theorem zeroAll (s : State) : s.zeroAll.Inv where
  duty_legal := dutyLegal_zero
  on_orbit := .zero _

theorem stepLfsr (h : s.Inv) : (s.stepLfsr Config.params).Inv where
  duty_legal := h.duty_legal
  on_orbit := h.on_orbit.step

theorem loadDuty (h : s.Inv) : s.loadDuty.Inv where
  duty_legal := dMap_legal _
  on_orbit := h.on_orbit

theorem resample (h : s.Inv) : (s.resample Config.params).Inv where
  duty_legal := by rw [State.resample_eq]; exact h.duty_legal
  on_orbit := by
    rw [State.resample_eq, State.setLfsr_lfsr, resampled_eq]
    split
    · exact h.on_orbit.step
    · exact h.on_orbit

/-- TICK writes DUTY with a mapped byte and LFSR with the step's result, each where it writes it at all (R41). -/
theorem tick (h : s.Inv) : (s.tick Config.params).Inv where
  duty_legal := by
    rw [State.tick_duty]
    split
    · exact dMap_legal _
    · exact h.duty_legal
  on_orbit := by
    rw [State.tick_lfsr]
    split
    · exact h.on_orbit.step
    · exact h.on_orbit

theorem exec {i : Instr} (h : s.Inv) (he : Machine.exec i s = .next t) : t.Inv := by
  cases execEffect_of_exec he with
  | resets b => exact zeroAll s
  | ticks => exact h.tick
  | increments | reads => exact h.of_eq rfl rfl
  | steps hi => exact h.stepLfsr
  | resamples hi => exact h.resample
  | loads hi => exact h.loadDuty
  | stepsAndLoads => exact h.stepLfsr.loadDuty
  | keeps hi => exact h

theorem beginService (h : s.Inv) : s.beginService.Inv := by
  obtain ⟨-, -, heq⟩ | ⟨-, heq⟩ := s.beginService_cases <;> rw [heq]
  · exact h.of_eq rfl rfl
  · exact h

theorem stepService (h : s.Inv) : (s.stepService Config.params).Inv := by
  obtain ⟨-, heq⟩ | ⟨-, heq⟩ := s.stepService_cases Config.params <;> rw [heq]
  · exact h.tick.of_eq rfl rfl
  · exact h

theorem endService (h : s.Inv) : s.endService.Inv := by
  obtain ⟨-, heq⟩ | ⟨-, heq⟩ := s.endService_cases <;> rw [heq]
  · exact h.of_eq rfl rfl
  · exact h

theorem perform {a : Action} (h : s.Inv) (hp : Machine.perform a s = .next t) : t.Inv := by
  cases a with
  | run i => exact h.exec hp
  | overflow => cases hp; exact h.of_eq rfl rfl
  | serviceBegin => cases hp; exact h.beginService
  | serviceSteps => cases hp; exact h.stepService
  | serviceEnd => cases hp; exact h.endService

theorem step (h : s.Inv) (hs : Machine.step s = .next t) : t.Inv := by
  cases hinput : s.input with
  | nil =>
    rw [step_of_nil hinput] at hs
    cases hs
    exact h
  | cons m rest =>
    rw [step_of_cons hinput] at hs
    have hrest : (s.setInput rest).Inv := h.of_eq rfl rfl
    exact hrest.perform hs

end State.Inv

/-- Settles O43: the step splits on the schedule, the move on its action, an operation on its effect. -/
theorem everyStepKeepsTheInvariant : Obligations.EveryStepKeepsTheInvariant :=
  fun _ _ h hs => h.step hs

/-- Settles O44: 0 is a legal DUTY and the first value of the seed's sequence. -/
theorem resetStateMeetsTheInvariant : Obligations.ResetStateMeetsTheInvariant :=
  State.Inv.zeroAll State.reset

end Sys2Proof.Machine

end

/-! ## Loads and mandatory advances counted from the Frame Counter (R20 (d)) -/

section

namespace Sys2Proof.Machine

theorem toNat_phaseWord (fc : PhaseWord) : (phaseWord fc).toNat = (fc.toNat + 1) % 32 :=
  BitVec.toNat_add fc 1#5

theorem State.toNat_fc_tick (P : Config.Params) (s : State) : (s.tick P).fc.toNat = (s.fc.toNat + 1) % 32 := by
  rw [State.tick_fc]
  exact toNat_phaseWord s.fc

theorem toNat_loadEn (p : PhaseWord) : (loadEn p).toNat = if p.toNat = 31 then 1 else 0 := by
  revert p; decide

theorem toNat_atStart (p : PhaseWord) : (atStart p).toNat = if p.toNat = 0 then 1 else 0 := by
  revert p; decide

/-- A load falls on each tick that brings the number of ticks to one below a multiple of 32, counted from FC = 0. -/
theorem loadCount_add_fc_div (P : Config.Params) (n : Nat) (s : State) :
    loadCount P n s + (s.fc.toNat + 1) / 32 = (s.fc.toNat + n + 1) / 32 := by
  induction n generalizing s with
  | zero => simp [loadCount]
  | succ n ih =>
    have hfc := s.fc.isLt
    have hnext := ih (s.tick P)
    rw [State.toNat_fc_tick] at hnext
    rw [loadCount, toNat_loadEn, toNat_phaseWord]
    split <;> omega

/-- A mandatory advance falls on each tick that brings the number of ticks to a multiple of 32, counted from FC = 0. -/
theorem mandatoryCount_eq (P : Config.Params) (n : Nat) (s : State) :
    mandatoryCount P n s = (s.fc.toNat + n) / 32 := by
  induction n generalizing s with
  | zero =>
    have hfc := s.fc.isLt
    rw [mandatoryCount]
    omega
  | succ n ih =>
    have hfc := s.fc.isLt
    rw [mandatoryCount, ih, State.toNat_fc_tick, toNat_atStart, toNat_phaseWord]
    split <;> omega

theorem State.toNat_fc_reset : State.reset.fc.toNat = 0 := rfl

/-- Settles O34: the counts from any state, at FC = 0. -/
theorem loadsAndMandatoryAdvancesFromReset : Obligations.LoadsAndMandatoryAdvancesFromReset := by
  intro P n
  have hload := loadCount_add_fc_div P n State.reset
  have hmandatory := mandatoryCount_eq P n State.reset
  rw [State.toNat_fc_reset] at hload hmandatory
  omega

end Sys2Proof.Machine

end

/-! ## What writes FC, and the registers after reset (R11, R19, R42, R44) -/

section

namespace Sys2Proof.Machine

@[simp] theorem State.incFc_fc (s : State) : s.incFc.fc = s.fc + 1#5 := rfl
@[simp] theorem State.stepLfsr_fc (P : Config.Params) (s : State) : (s.stepLfsr P).fc = s.fc := rfl
@[simp] theorem State.loadDuty_fc (s : State) : s.loadDuty.fc = s.fc := rfl
@[simp] theorem State.readDuty_fc (s : State) : s.readDuty.fc = s.fc := rfl
@[simp] theorem State.resample_fc (P : Config.Params) (s : State) : (s.resample P).fc = s.fc := by
  rw [State.resample_eq, State.setLfsr_fc]

theorem exec_fc_of_no_increment {i : Instr} {s t : State} (h : exec i s = .next t) (htick : i ≠ .tick) (hinc : i ≠ .fcinc)
    (hreset : ∀ b, i ≠ .reset b) : t.fc = s.fc := by
  cases execEffect_of_exec h with
  | resets b => exact absurd rfl (hreset b)
  | ticks => exact absurd rfl htick
  | increments => exact absurd rfl hinc
  | reads | steps | resamples | loads | stepsAndLoads | keeps => simp

/-- Settles O40: TICK and FCINC increment, RESET zeroes, and no other effect writes FC. -/
theorem onlyAnIncrementOrResetMovesFc : Obligations.OnlyAnIncrementOrResetMovesFc := by
  intro i s t h
  refine ⟨?_, ?_, exec_fc_of_no_increment h⟩
  · rintro (rfl | rfl) <;> cases h
    · exact State.tick_fc _ s
    · exact State.incFc_fc s
  · rintro b rfl
    cases h
    exact State.zeroAll_fc s

/-- Settles O45: the three registers and the two hidden bits, each by its value in `State.reset`. -/
theorem resetStateIsAllZero : Obligations.ResetStateIsAllZero :=
  ⟨rfl, rfl, rfl, rfl, State.busy_eq_false.mpr rfl⟩

end Sys2Proof.Machine

end

/-! ## The record of reads over every step (R26, R29) -/

section

namespace Sys2Proof.Machine

@[simp] theorem State.resample_dreads (P : Config.Params) (s : State) : (s.resample P).dreads = s.dreads := by
  rw [State.resample_eq, State.setLfsr_dreads]

@[simp] theorem State.beginService_dreads (s : State) : s.beginService.dreads = s.dreads := by
  obtain ⟨-, -, heq⟩ | ⟨-, heq⟩ := s.beginService_cases <;> rw [heq]

@[simp] theorem State.stepService_dreads (P : Config.Params) (s : State) : (s.stepService P).dreads = s.dreads := by
  obtain ⟨-, heq⟩ | ⟨-, heq⟩ := s.stepService_cases P <;> rw [heq]
  exact s.tick_dreads P

@[simp] theorem State.endService_dreads (s : State) : s.endService.dreads = s.dreads := by
  obtain ⟨-, heq⟩ | ⟨-, heq⟩ := s.endService_cases <;> rw [heq]

/-- DREAD is the one operation that writes the record, and it writes nothing else (R62). -/
theorem exec_keeps_dreads_or_reads {i : Instr} {s t : State} (h : exec i s = .next t) :
    t.dreads = s.dreads ∨ t = s.readDuty := by
  cases execEffect_of_exec h with
  | reads => exact .inr rfl
  | ticks => exact .inl (s.tick_dreads _)
  | resamples => exact .inl (s.resample_dreads _)
  | resets | increments | steps | loads | stepsAndLoads | keeps => exact .inl rfl

theorem perform_keeps_dreads_or_reads {a : Action} {s t : State} (h : perform a s = .next t) :
    t.dreads = s.dreads ∨ t = s.readDuty := by
  cases a with
  | run i => exact exec_keeps_dreads_or_reads h
  | overflow => cases h; exact .inl rfl
  | serviceBegin => cases h; exact .inl s.beginService_dreads
  | serviceSteps => cases h; exact .inl (s.stepService_dreads _)
  | serviceEnd => cases h; exact .inl s.endService_dreads

/-- Settles O56: a move leaves the record, or is a read from the state with the move taken off the schedule. -/
theorem stepRecordsNoReadOrTheValueHeld : Obligations.StepRecordsNoReadOrTheValueHeld := by
  intro s t h
  cases hinput : s.input with
  | nil =>
    rw [step_of_nil hinput] at h
    cases h
    exact .inl rfl
  | cons m rest =>
    rw [step_of_cons hinput] at h
    obtain hkeeps | rfl := perform_keeps_dreads_or_reads h
    · exact .inl hkeeps
    · exact .inr ⟨rfl, rfl, rfl, rfl, rfl, rfl⟩

end Sys2Proof.Machine

end

/-! ## Runs of event words TICK, and of reads around the steps of a service (R28, R29) -/

section

namespace Sys2Proof.Machine

/-! TICK reads and writes only the registers (R41): it commutes with the writes of everything else. -/

theorem State.tick_setInput (P : Config.Params) (s : State) (l : List Input) :
    (s.setInput l).tick P = (s.tick P).setInput l := by
  rw [State.tick_eq, State.tick_eq]; rfl

theorem State.tick_recordDread (P : Config.Params) (s : State) (v : Byte) :
    (s.recordDread v).tick P = (s.tick P).recordDread v := by
  rw [State.tick_eq, State.tick_eq]; rfl

theorem step_tickWord {s : State} (hp : s.pend = false) (hs : s.service = .idle) (rest : List Input) :
    step (s.setInput (.ev 0b01#2 :: rest)) = .next ((s.tick Config.params).setInput rest) := by
  have hselect : select (.ev 0b01#2) (s.setInput (.ev 0b01#2 :: rest)) = .run .tick :=
    deliver_run (.inr (State.quiet_iff.mpr ⟨hp, hs⟩))
  rw [step_of_cons (State.setInput_input s _), hselect, ← State.tick_setInput]
  rfl

theorem core_run_tickWords {s : State} (hp : s.pend = false) (hs : s.service = .idle) (n : Nat) (l : List Input) :
    core.run n (s.setInput (List.replicate n (.ev 0b01#2) ++ l)) = .next ((s.ticks Config.params n).setInput l) := by
  induction n generalizing s with
  | zero => rfl
  | succ n ih =>
    rw [List.replicate_succ, List.cons_append, core_run_succ (step_tickWord hp hs _), State.ticks_succ]
    exact ih ((s.tick_pend _).trans hp) ((s.tick_service _).trans hs)

/-- Settles O57, by induction on the number of words: a TICK leaves nothing pending or in progress where nothing was. -/
theorem runOfTickWordsIsThatManyTicks : Obligations.RunOfTickWordsIsThatManyTicks :=
  fun n _ rest hp hs => core_run_tickWords hp hs n rest

theorem core_run_dread (s : State) (n : Nat) (l : List Input) :
    core.run (n + 1) (s.setInput (.dread :: l)) = core.run n (s.readDuty.setInput l) :=
  core_run_succ rfl

theorem core_run_serviceSteps {s : State} (hs : s.service = .begun) (n : Nat) (l : List Input) :
    core.run (n + 1) (s.setInput (.serviceSteps :: l)) =
      core.run n (((s.tick Config.params).setService .stepped).setInput l) := by
  apply core_run_succ
  have hsteps : (s.setInput l).stepService Config.params = ((s.setInput l).tick Config.params).setService .stepped :=
    if_pos hs
  rw [State.tick_setInput] at hsteps
  exact congrArg Host.Outcome.next hsteps

/-- Settles O55: the two reads before the steps record the old DUTY, which the steps neither read nor drop from the record, and
the two after them the new one. -/
theorem comparatorReadsOldThenNew : Obligations.ComparatorReadsOldThenNew := by
  intro s t rest hs ht
  change exec .tick (s.setInput rest) = .next t at ht
  rw [exec_tick, State.tick_setInput] at ht
  cases ht
  change core.run 5 (s.setInput (.dread :: .dread :: .serviceSteps :: .dread :: .dread :: rest)) = _
  have hbegun : s.readDuty.readDuty.service = .begun := hs
  rw [core_run_dread, core_run_dread, core_run_serviceSteps hbegun, core_run_dread, core_run_dread, core_run_zero]
  simp only [State.readDuty_eq, State.tick_recordDread]
  simp only [State.recordDread, State.setInput, State.setService, State.tick_dreads]

end Sys2Proof.Machine

end

/-! ## The decoder and the encoder undo each other (R34, R35, R36, R38) -/

section

namespace Sys2Proof

/-- What decodes to what: a word of one of the three formats that has words, by that format's table. -/
inductive DecodesTo : RawWord → Instr → Prop where
  | ev (v : EventWord) : DecodesTo ⟨.ev, v.toNat⟩ (decodeEv v)
  | ph (p : PhaseWord) : DecodesTo ⟨.ph, p.toNat⟩ (decodePh p)
  | cw (c : ControlWord) : DecodesTo ⟨.cw, c.toNat⟩ (decodeCw c)

theorem decode_ev (v : EventWord) : decode ⟨.ev, v.toNat⟩ = .ok (decodeEv v) :=
  (if_pos v.isLt).trans (by rw [BitVec.ofNat_toNat, BitVec.setWidth_eq])

theorem decode_ph (p : PhaseWord) : decode ⟨.ph, p.toNat⟩ = .ok (decodePh p) :=
  (if_pos p.isLt).trans (by rw [BitVec.ofNat_toNat, BitVec.setWidth_eq])

theorem decode_cw (c : ControlWord) : decode ⟨.cw, c.toNat⟩ = .ok (decodeCw c) :=
  (if_pos c.isLt).trans (by rw [BitVec.ofNat_toNat, BitVec.setWidth_eq])

/-- A number that fits the width of a format with words is the value of some word of that width. -/
theorem RawWord.exists_word_of_wellFormed {w : RawWord} (h : w.wellFormed = true) :
    (∃ v : EventWord, w = ⟨.ev, v.toNat⟩) ∨ (∃ p : PhaseWord, w = ⟨.ph, p.toNat⟩) ∨
      ∃ c : ControlWord, w = ⟨.cw, c.toNat⟩ := by
  obtain ⟨format, bits⟩ := w
  obtain ⟨hformat, hfit⟩ : format ≠ .unencoded ∧ bits < 2 ^ format.width := by simpa [RawWord.wellFormed] using h
  cases format with
  | ev => exact .inl ⟨.ofNatLT bits hfit, rfl⟩
  | ph => exact .inr (.inl ⟨.ofNatLT bits hfit, rfl⟩)
  | cw => exact .inr (.inr ⟨.ofNatLT bits hfit, rfl⟩)
  | unencoded => exact absurd rfl hformat

theorem RawWord.wellFormed_of_decode {w : RawWord} {i : Instr} (h : decode w = .ok i) : w.wellFormed = true := by
  obtain ⟨format, bits⟩ := w
  by_cases hfit : bits < 2 ^ format.width
  · cases format with
    | ev | ph | cw => simpa [RawWord.wellFormed] using hfit
    | unencoded => cases h
  · cases format with
    | ev | ph | cw => cases (if_neg hfit).symm.trans h
    | unencoded => cases h

theorem decodesTo_of_decode {w : RawWord} {i : Instr} (h : decode w = .ok i) : DecodesTo w i := by
  obtain ⟨v, rfl⟩ | ⟨p, rfl⟩ | ⟨c, rfl⟩ := w.exists_word_of_wellFormed (w.wellFormed_of_decode h)
  · cases (decode_ev v).symm.trans h; exact .ev v
  · cases (decode_ph p).symm.trans h; exact .ph p
  · cases (decode_cw c).symm.trans h; exact .cw c

theorem encode_decodeEv (v : EventWord) : encode (decodeEv v) = ⟨.ev, v.toNat⟩ := by
  revert v; decide

theorem encode_decodePh (p : PhaseWord) : encode (decodePh p) = ⟨.ph, p.toNat⟩ := by
  revert p; decide

theorem encode_decodeCw (c : ControlWord) : encode (decodeCw c) = ⟨.cw, c.toNat⟩ := by
  revert c; decide

theorem decodeEv_append_one (t : BitVec 1) : decodeEv (1#1 ++ t) = .reset t := by
  revert t; decide

/-! The library's lemmas at the width `simp` sees, 5 and not `2 + 3`. -/

theorem high_append (hi : BitVec 2) (low : BitVec 3) : (hi ++ low : PhaseWord).extractLsb' 3 2 = hi :=
  BitVec.extractLsb'_append_eq_left

theorem low_append (hi : BitVec 2) (low : BitVec 3) : (hi ++ low : PhaseWord).extractLsb' 0 3 = low :=
  BitVec.extractLsb'_append_eq_right

theorem decode_phWord (hi : BitVec 2) (low : BitVec 3) : decode (phWord hi low) = .ok (decodePh (hi ++ low)) :=
  decode_ph (hi ++ low)

/-- Settles O1: a row without open bits is one word; the others are read back field by field. -/
theorem encodeThenDecodeIsIdentity : Obligations.EncodeThenDecodeIsIdentity := by
  intro i h
  cases i with
  | reset t => exact (decode_ev (1#1 ++ t)).trans (congrArg Except.ok (decodeEv_append_one t))
  | tick | hold => rfl
  | phStart | phCheck08 | phCheck10 | phCheck18 | phEnd | phIdle07 | phIdle0F | phIdle17 => rfl
  | phIdleLow1 hi | phIdleLow2 hi | phIdleLow3 hi | phIdleLow4 hi | phIdleLow5 hi | phIdleLow6 hi =>
    simp [encode, decode_phWord, decodePh, high_append, low_append]
  | nop | lstep | dload | lstepDload => rfl
  | fcinc | dread => cases h

/-- Settles O2: format by format, every word of its width. -/
theorem decodeThenEncodeIsIdentity : Obligations.DecodeThenEncodeIsIdentity := by
  intro w i h
  cases decodesTo_of_decode h with
  | ev v => exact encode_decodeEv v
  | ph p => exact encode_decodePh p
  | cw c => exact encode_decodeCw c

/-- Settles O3: a word that fits is a bit vector of its format's width, and nothing else passes the decoder's checks. -/
theorem everyWordOfAFormatDecodes : Obligations.EveryWordOfAFormatDecodes := by
  refine fun w => ⟨fun h => ?_, fun ⟨_, h⟩ => w.wellFormed_of_decode h⟩
  obtain ⟨v, rfl⟩ | ⟨p, rfl⟩ | ⟨c, rfl⟩ := w.exists_word_of_wellFormed h
  · exact ⟨_, decode_ev v⟩
  · exact ⟨_, decode_ph p⟩
  · exact ⟨_, decode_cw c⟩

theorem Laws.EncodedWordFits.statement : ∀ i : Instr, Statement i
  | .reset b => reset b
  | .tick => tick
  | .hold => hold
  | .phStart => phStart
  | .phCheck08 => phCheck08
  | .phCheck10 => phCheck10
  | .phCheck18 => phCheck18
  | .phEnd => phEnd
  | .phIdleLow1 hi => phIdleLow1 hi
  | .phIdleLow2 hi => phIdleLow2 hi
  | .phIdleLow3 hi => phIdleLow3 hi
  | .phIdleLow4 hi => phIdleLow4 hi
  | .phIdleLow5 hi => phIdleLow5 hi
  | .phIdleLow6 hi => phIdleLow6 hi
  | .phIdle07 => phIdle07
  | .phIdle0F => phIdle0F
  | .phIdle17 => phIdle17
  | .nop => nop
  | .lstep => lstep
  | .dload => dload
  | .lstepDload => lstepDload
  | .fcinc => fcinc
  | .dread => dread

theorem hasEncoding_of_decode {w : RawWord} {i : Instr} (h : decode w = .ok i) : i.hasEncoding = true := by
  obtain ⟨-, hnone⟩ := Laws.EncodedWordFits.statement i
  by_contra hno
  have hw : w = ⟨.unencoded, 0⟩ := (decodeThenEncodeIsIdentity w i h).symm.trans (hnone (by simpa using hno))
  rw [hw] at h
  cases h

/-- Settles O4: the word is the encoding of the operation, which one row alone accepts. -/
theorem exactlyOneTableRowAcceptsAWord : Obligations.ExactlyOneTableRowAcceptsAWord := by
  intro w i h
  obtain ⟨hencoded, -⟩ := Laws.EncodedWordFits.statement i
  obtain ⟨-, hrow⟩ := hencoded (hasEncoding_of_decode h)
  rwa [decodeThenEncodeIsIdentity w i h] at hrow

/-- Settles O5: eleven words, each by running the decoder. -/
theorem sampleWordsDecodeAsTheTablesSay : Obligations.SampleWordsDecodeAsTheTablesSay :=
  ⟨rfl, rfl, rfl, rfl, rfl, rfl, rfl, rfl, rfl, rfl, rfl⟩

theorem decodeEv_of_rst {w : EventWord} (h : w.getLsbD 1 = true) : decodeEv w = .reset (w.extractLsb' 0 1) :=
  if_pos h

theorem getLsbD_rst_of_mask {w : EventWord} (h : w &&& 0b10#2 = 0b10#2) : w.getLsbD 1 = true := by
  revert w; decide

/-- Settles O6: the decoder looks at the reset bit first, and no meaning reads the tick a RESET carries. -/
theorem eventWordsDecodeAndResetWins : Obligations.EventWordsDecodeAndResetWins :=
  ⟨rfl, rfl, rfl, rfl, fun _ h => ⟨_, decodeEv_of_rst (getLsbD_rst_of_mask h)⟩, fun _ _ _ => rfl, rfl⟩

end Sys2Proof

end

/-! ## Phase words and the control words they generate (R36, R45, R52) -/

section

namespace Sys2Proof

/-- The nine rows of R49. -/
def Instr.isPhIdle : Instr → Bool
  | .phIdleLow1 _ | .phIdleLow2 _ | .phIdleLow3 _ | .phIdleLow4 _ | .phIdleLow5 _ | .phIdleLow6 _ => true
  | .phIdle07 | .phIdle0F | .phIdle17 => true
  | _ => false

theorem isPhIdle_decodePh : ∀ {p : PhaseWord}, p.extractLsb' 0 3 ≠ 0#3 → p ≠ 31#5 → (decodePh p).isPhIdle = true := by
  decide

namespace Machine

theorem exec_of_isPhIdle {i : Instr} (h : i.isPhIdle = true) (s : State) : exec i s = .next s := by
  cases i with
  | phIdleLow1 | phIdleLow2 | phIdleLow3 | phIdleLow4 | phIdleLow5 | phIdleLow6 => rfl
  | phIdle07 | phIdle0F | phIdle17 => rfl
  | _ => cases h

/-- The four classes of phase words (R45), as what the word is. -/
theorem phaseWord_cases (p : PhaseWord) :
    p = 0#5 ∨ (p = 8#5 ∨ p = 16#5 ∨ p = 24#5) ∨ p = 31#5 ∨ (p.extractLsb' 0 3 ≠ 0#3 ∧ p ≠ 31#5) := by
  revert p; decide

theorem controlWord_start (mask : Byte) (v : LfsrWord) : controlWord mask 0#5 v = 0b10#2 := by
  rw [controlWord, advEn_at_start]; rfl

theorem controlWord_check {p : PhaseWord} (hp : p = 8#5 ∨ p = 16#5 ∨ p = 24#5) (mask : Byte) (v : LfsrWord) :
    controlWord mask p v = BitVec.ofBool (bad mask v) ++ 0#1 := by
  obtain rfl | rfl | rfl := hp <;> rfl

theorem controlWord_end (mask : Byte) (v : LfsrWord) : controlWord mask 31#5 v = 0b01#2 := by
  rw [controlWord, advEn_at_refresh]; rfl

theorem controlWord_idle {p : PhaseWord} (h0 : p.extractLsb' 0 3 ≠ 0#3) (h31 : p ≠ 31#5) (mask : Byte) (v : LfsrWord) :
    controlWord mask p v = 0b00#2 := by
  have hstart : p ≠ 0#5 := fun h => h0 (by rw [h]; rfl)
  have hadv : advEn mask p v = false := by
    rw [Bool.eq_false_iff, ne_eq, advEn_iff]
    tauto
  have hload : loadEn p = false := by
    rwa [Bool.eq_false_iff, ne_eq, loadEn_iff]
  rw [controlWord, hadv, hload]; rfl

/-- A checkpoint's two control words are NOP and LSTEP, the two branches of a resample (R47). -/
theorem exec_decodeCw_resample (s : State) :
    exec (decodeCw (BitVec.ofBool (bad Config.params.badMask s.lfsr) ++ 0#1)) s = .next (s.resample Config.params) := by
  rw [State.resample]
  cases bad Config.params.badMask s.lfsr <;> rfl

/-- Settles O30: class by class, the phase word's control word is that of its meaning. -/
theorem phaseOperationIsItsControlWordsOperation : Obligations.PhaseOperationIsItsControlWordsOperation := by
  intro p s
  obtain rfl | hcheck | rfl | ⟨h0, h31⟩ := phaseWord_cases p
  · rw [controlWord_start]; rfl
  · rw [controlWord_check hcheck, exec_decodeCw_resample]
    obtain rfl | rfl | rfl := hcheck <;> rfl
  · rw [controlWord_end]; rfl
  · rw [controlWord_idle h0 h31, exec_of_isPhIdle (isPhIdle_decodePh h0 h31)]; rfl

theorem getLsbD_ofBool_append (a l : Bool) :
    (BitVec.ofBool a ++ BitVec.ofBool l).getLsbD 1 = a ∧ (BitVec.ofBool a ++ BitVec.ofBool l).getLsbD 0 = l := by
  revert a l; decide

theorem controlWord_ne_lstepDload (mask : Byte) (p : PhaseWord) (v : LfsrWord) : controlWord mask p v ≠ 0b11#2 := by
  intro h
  obtain ⟨hadv, hload⟩ := getLsbD_ofBool_append (advEn mask p v) (loadEn p)
  rw [← controlWord, h] at hadv hload
  have hp : p = 31#5 := (loadEn_iff p).mp hload.symm
  rw [hp, advEn_at_refresh] at hadv
  cases hadv

/-- Settles O15: the four words by the decoder, their meanings by `exec`, and the enables as the control word's two bits. -/
theorem controlWordsSelectStepAndLoad : Obligations.ControlWordsSelectStepAndLoad := by
  refine ⟨⟨rfl, rfl, rfl, rfl⟩, exec_nop, exec_lstep, exec_dload, exec_lstepDload, fun mask p v => ?_⟩
  obtain ⟨hadv, hload⟩ := getLsbD_ofBool_append (advEn mask p v) (loadEn p)
  exact ⟨hadv, hload, controlWord_ne_lstepDload mask p v⟩

end Machine

end Sys2Proof

end

/-! ## A step runs the operation its move's word decodes to (R34, R72) -/

section

namespace Sys2Proof.Machine

theorem step_of_select_run {s : State} {m : Input} {rest : List Input} {i : Instr} (hinput : s.input = m :: rest)
    (hselect : select m s = .run i) : step s = exec i (s.setInput rest) := by
  rw [step_of_cons hinput, hselect]; rfl

/-- Settles O47: each move selects its word's operation, an event word's TICK because nothing is pending or in progress. -/
theorem stepRunsTheDecodedOperation : Obligations.StepRunsTheDecodedOperation := by
  refine fun s rest => ⟨fun w hinput hready => ?_, fun p hinput => ?_, fun c hinput => ?_, fun hinput => ?_, fun hinput => ?_⟩
  · exact step_of_select_run hinput (deliver_run (hready.imp_right State.quiet_iff.mpr))
  all_goals exact step_of_select_run hinput rfl

end Sys2Proof.Machine

end

/-! ## The pseudo-events, and traces on the machine and on the bench (R39, R40) -/

section

namespace Sys2Proof.Machine

theorem State.toNat_fc_ticks (P : Config.Params) (n : Nat) (s : State) :
    (s.ticks P n).fc.toNat = (s.fc.toNat + n) % 32 := by
  induction n with
  | zero => exact (Nat.mod_eq_of_lt s.fc.isLt).symm
  | succ n ih => rw [State.ticks_last, State.toNat_fc_tick, ih, Nat.mod_add_mod, Nat.add_assoc]

theorem State.fc_ticks_periods (P : Config.Params) (n : Nat) (s : State) : (s.ticks P (32 * n)).fc = s.fc := by
  apply BitVec.eq_of_toNat_eq
  rw [State.toNat_fc_ticks, Nat.add_mul_mod_self_left]
  exact Nat.mod_eq_of_lt s.fc.isLt

/-- Settles O33: of 32 consecutive values of FC one is 31 and one is 0. -/
theorem periodHasOneLoadAndOneMandatoryAdvance : Obligations.PeriodHasOneLoadAndOneMandatoryAdvance := by
  intro P s
  have hfc := s.fc.isLt
  have hload := loadCount_add_fc_div P 32 s
  have hmandatory := mandatoryCount_eq P 32 s
  exact ⟨by omega, by omega, s.fc_ticks_periods P 1⟩

/-- Settles O58: the expansions are the definition's, and whole periods leave FC where it was. -/
theorem pseudoEventsExpandToEventWords : Obligations.PseudoEventsExpandToEventWords :=
  fun n => ⟨rfl, rfl, rfl, rfl, fun P s => s.fc_ticks_periods P n⟩

@[simp] theorem State.ticks_pend (P : Config.Params) (n : Nat) (s : State) : (s.ticks P n).pend = s.pend := by
  induction n with
  | zero => rfl
  | succ n ih => rw [State.ticks_last, State.tick_pend, ih]

@[simp] theorem State.ticks_service (P : Config.Params) (n : Nat) (s : State) : (s.ticks P n).service = s.service := by
  induction n with
  | zero => rfl
  | succ n ih => rw [State.ticks_last, State.tick_service, ih]

theorem core_run_holdWords (n : Nat) (s : State) (l : List Input) :
    core.run n (s.setInput (List.replicate n (.ev 0b00#2) ++ l)) = .next (s.setInput l) := by
  induction n with
  | zero => rfl
  | succ n ih => exact (core_run_succ rfl).trans ih

/-- A bench on which a TICK is the machine's: its parameters are the machine's, and nothing is pending or in progress. -/
structure Bench.AtRest (b : Bench) : Prop where
  params_eq : b.params = Config.params
  pend_eq : b.state.pend = false
  service_eq : b.state.service = .idle

theorem Bench.AtRest.benchLine {b : Bench} {line : TraceLine} (h : b.AtRest) (hline : line.isEvent = true) :
    (Machine.benchLine b line).AtRest := by
  cases line with
  | reset => exact ⟨h.params_eq, rfl, rfl⟩
  | tick n | period n =>
    exact ⟨h.params_eq, (State.ticks_pend _ _ _).trans h.pend_eq, (State.ticks_service _ _ _).trans h.service_eq⟩
  | hold n => exact h
  | param | state | expect | dread | blank => cases hline

theorem core_run_lineWords {b : Bench} {line : TraceLine} (h : b.AtRest) (hline : line.isEvent = true) (rest : List Input) :
    core.run line.words.length (b.state.setInput (line.words.map .ev ++ rest)) =
      .next ((benchLine b line).state.setInput rest) := by
  cases line with
  | reset => rfl
  | tick n | period n =>
    rw [TraceLine.words, List.length_replicate, List.map_replicate, core_run_tickWords h.pend_eq h.service_eq,
      ← h.params_eq]
    rfl
  | hold n =>
    rw [TraceLine.words, List.length_replicate, List.map_replicate, core_run_holdWords]
    rfl
  | param | state | expect | dread | blank => cases hline

theorem core_run_traceWords {b : Bench} {trace : List TraceLine} (h : b.AtRest) (hevents : trace.all TraceLine.isEvent = true)
    (rest : List Input) :
    core.run (traceWords trace).length (b.state.setInput ((traceWords trace).map .ev ++ rest)) =
      .next ((benchRun b trace).state.setInput rest) := by
  induction trace generalizing b with
  | nil => rfl
  | cons line trace ih =>
    obtain ⟨hline, htrace⟩ : line.isEvent = true ∧ trace.all TraceLine.isEvent = true := by simpa using hevents
    have hwords : traceWords (line :: trace) = line.words ++ traceWords trace := List.flatMap_cons
    rw [hwords, List.length_append, List.map_append, List.append_assoc, core_run_add (core_run_lineWords h hline _)]
    exact ih (h.benchLine hline) htrace

/-- Settles O59, by induction on the trace: the words of a line take the machine where the line takes the bench. -/
theorem traceWordsRunAsTheBenchRuns : Obligations.TraceWordsRunAsTheBenchRuns :=
  fun _ s rest hevents hp hs => core_run_traceWords (b := ⟨Config.params, s, true⟩) ⟨rfl, hp, hs⟩ hevents rest

end Sys2Proof.Machine

end

/-! ## TICK as FCINC and then its phase word's operation (R33, R41, R44) -/

section

namespace Sys2Proof.Machine

@[simp] theorem State.advance_fc (P : Config.Params) (s : State) : (s.advance P).fc = s.fc := by
  rw [State.advance, apply_ite State.fc, State.stepLfsr_fc, ite_self]

/-- The control word's two enables are the conditions of steps 3 and 4 of TICK (R36, R41). -/
theorem exec_decodeCw_controlWord (s : State) :
    exec (decodeCw (controlWord Config.params.badMask s.fc s.lfsr)) s = .next (s.advance Config.params).refresh := by
  rw [controlWord, State.refresh, State.advance_fc, State.advance]
  cases advEn Config.params.badMask s.fc s.lfsr <;> cases loadEn s.fc <;> rfl

/-- The operation of the phase word FC holds is the rest of a TICK after FCINC (R41, R45). -/
theorem exec_decodePh_fc (s : State) : exec (decodePh s.fc) s = .next (s.advance Config.params).refresh := by
  rw [phaseOperationIsItsControlWordsOperation, exec_decodeCw_controlWord]

theorem exec_tick_eq_exec_decodePh (s : State) : exec .tick s = exec (decodePh s.incFc.fc) s.incFc :=
  (exec_decodePh_fc s.incFc).symm

/-- Settles O29: FCINC answers the state with FC incremented, from which the phase word's operation is the rest of the TICK. -/
theorem tickIsIncrementThenPhaseOperation : Obligations.TickIsIncrementThenPhaseOperation := by
  intro s t h
  cases h
  exact exec_tick_eq_exec_decodePh s

theorem add_one_eq_ofNat (fc : PhaseWord) : fc + 1#5 = BitVec.ofNat 5 ((fc.toNat + 1) % 32) := by
  apply BitVec.eq_of_toNat_eq
  rw [BitVec.toNat_ofNat, Nat.mod_mod]
  exact toNat_phaseWord fc

/-- Settles O10: one increment as arithmetic modulo 32, and n of them by the count of FC over a run of ticks. -/
theorem frameCounterCountsTicks : Obligations.FrameCounterCountsTicks := by
  refine ⟨fun s => ?_, exec_tick_eq_exec_decodePh, fun P s => s.fc_ticks_periods P 1, fun P n s => s.toNat_fc_ticks P n,
    fun P n => ?_⟩
  · rw [exec_fcinc, State.incFc_eq, add_one_eq_ofNat]; rfl
  · rw [State.toNat_fc_ticks, State.toNat_fc_reset, Nat.zero_add]

end Sys2Proof.Machine

end

/-! ## TICK register by register (R41, R50, R51, R52, R59) -/

section

namespace Sys2Proof.Machine

/-- The goodness test in the spec's words (R51). -/
theorem bad_iff (mask : Byte) (s : LfsrWord) : bad mask s = true ↔ s.extractLsb' 0 8 &&& mask = 0#8 := beq_iff_eq

/-- At the load the advance condition is false (R36), so the load finds the LFSR the TICK started with. -/
theorem State.tick_lfsr_of_load (P : Config.Params) {s : State} (h : s.fc + 1#5 = 31#5) : (s.tick P).lfsr = s.lfsr := by
  rw [State.tick_lfsr, h, advEn_at_refresh, if_neg Bool.false_ne_true]

/-- Settles O31: at phase word 31 the LFSR is kept, and at every other one DUTY is. -/
theorem noTickChangesBothLfsrAndDuty : Obligations.NoTickChangesBothLfsrAndDuty := by
  intro s t h
  cases h
  by_cases hload : s.fc + 1#5 = 31#5
  · exact .inl (State.tick_lfsr_of_load _ hload)
  · exact .inr ((State.tick_duty _ s).trans (if_neg hload))

/-- The LFSR after a TICK, with the advance condition in the spec's words (R41, R51, R52). -/
theorem State.tick_lfsr_spec (P : Config.Params) (s : State) :
    (s.tick P).lfsr =
      if s.fc + 1#5 = 0#5 ∨ ((s.fc + 1#5).extractLsb' 0 3 = 0#3 ∧ s.lfsr.extractLsb' 0 8 &&& P.badMask = 0#8) then
        lStep P.poly s.lfsr
      else s.lfsr := by
  simp only [State.tick_lfsr, advEn_iff, bad_iff]

/-- A TICK's load takes the LFSR as the TICK leaves it (R41). -/
theorem State.tick_duty_of_new_lfsr (P : Config.Params) (s : State) :
    (s.tick P).duty = if s.fc + 1#5 = 31#5 then dMap (lowByte (s.tick P).lfsr) else s.duty := by
  rw [State.tick_duty]
  split
  case isTrue hload => rw [State.tick_lfsr_of_load P hload]
  case isFalse => rfl

/-- TICK writes the three registers and nothing else. -/
theorem State.tick_eq_registers (P : Config.Params) (s : State) :
    s.tick P = { s with fc := s.fc + 1#5, lfsr := (s.tick P).lfsr, duty := (s.tick P).duty } := by
  rw [State.tick_eq]; rfl

/-- Settles O8: each register's value after a TICK in the spec's words, and the rest as it was. -/
theorem tickPerformsTheFourSteps : Obligations.TickPerformsTheFourSteps := by
  intro s p lfsr' low duty'
  have hlfsr : (s.tick Config.params).lfsr = lfsr' := s.tick_lfsr_spec Config.params
  have hduty : (s.tick Config.params).duty = duty' := by
    rw [State.tick_duty_of_new_lfsr, hlfsr, dMap_eq]; rfl
  rw [exec_tick, State.tick_eq_registers, hlfsr, hduty]

end Sys2Proof.Machine

end

/-! ## The operation of each event and each phase class (R42, R43, R45 to R49) -/

section

namespace Sys2Proof.Machine

/-- Settles O7: both words carry the reset bit, and the one meaning zeroes the block. -/
theorem resetZeroesTheBlock : Obligations.ResetZeroesTheBlock :=
  fun b s => ⟨decodeEv_append_one b, exec_reset b s⟩

/-- Settles O9: the word by the decoder, the meaning by `exec`. -/
theorem holdKeepsEveryRegister : Obligations.HoldKeepsEveryRegister := ⟨rfl, exec_hold⟩

/-- Settles O48: the step of an empty schedule. -/
theorem stepWithNoMoveHolds : Obligations.StepWithNoMoveHolds := fun _ => step_of_nil

/-- Settles O11: the phase word 0 always enables the step. -/
theorem phStartAlwaysAdvances : Obligations.PhStartAlwaysAdvances :=
  ⟨rfl, controlWord_start, exec_phStart⟩

/-- A checkpoint with the goodness test and the step in the spec's words (R47, R50, R51). -/
theorem State.resample_spec (P : Config.Params) (s : State) :
    s.resample P =
      { s with lfsr :=
        if s.lfsr.extractLsb' 0 8 &&& P.badMask = 0#8 then
          (if s.lfsr.getLsbD 0 then s.lfsr >>> 1 else (s.lfsr >>> 1) ^^^ P.poly)
        else s.lfsr } := by
  rw [State.resample_eq, resampled_eq]
  simp only [bad_iff, lStep_eq, State.setLfsr]

/-- Settles O12: the three checkpoints are one resample, each at its own phase word. -/
theorem phCheckResamplesABadValueOnce : Obligations.PhCheckResamplesABadValueOnce := by
  refine fun i hi => ⟨?_, fun s => ?_⟩
  · rcases hi with rfl | rfl | rfl
    · exact ⟨8#5, rfl, .inl rfl⟩
    · exact ⟨16#5, rfl, .inr (.inl rfl)⟩
    · exact ⟨24#5, rfl, .inr (.inr rfl)⟩
  · rw [← State.resample_spec]
    rcases hi with rfl | rfl | rfl <;> rfl

/-- Bit 4 of the LFSR is the bit of the low byte that saturates (R59). -/
theorem getLsbD_four_lowByte (v : LfsrWord) : (lowByte v).getLsbD 4 = v.getLsbD 4 := by
  simp [lowByte]

/-- Settles O13: phase word 31 never enables the step, and its load is the mapping of the low byte. -/
theorem phEndLoadsTheLatch : Obligations.PhEndLoadsTheLatch := by
  refine ⟨rfl, controlWord_end, fun s => ?_⟩
  rw [exec_phEnd, State.loadDuty_eq, dMap_eq, getLsbD_four_lowByte]; rfl

theorem phaseClass_eq_start_iff (p : PhaseWord) : phaseClass p = .start ↔ p = 0#5 := by
  revert p; decide

theorem phaseClass_eq_check_iff (p : PhaseWord) : phaseClass p = .check ↔ p = 8#5 ∨ p = 16#5 ∨ p = 24#5 := by
  revert p; decide

theorem phaseClass_eq_end_iff (p : PhaseWord) : phaseClass p = .end_ ↔ p = 31#5 := by
  revert p; decide

theorem phaseClass_eq_idle_iff (p : PhaseWord) : phaseClass p = .idle ↔ p.extractLsb' 0 3 ≠ 0#3 ∧ p ≠ 31#5 := by
  revert p; decide

/-- Settles O21: the phase words of each class, and of the load. -/
theorem phaseDecodeClassifiesEveryPhaseWord : Obligations.PhaseDecodeClassifiesEveryPhaseWord :=
  fun p => ⟨phaseClass_eq_start_iff p, phaseClass_eq_check_iff p, phaseClass_eq_end_iff p, phaseClass_eq_idle_iff p,
    loadEn_iff p⟩

/-- Settles O14: an idle phase word enables neither write and decodes to an idle row, and no idle row does anything. -/
theorem phIdleWritesNothing : Obligations.PhIdleWritesNothing := by
  refine ⟨fun p h0 h31 => ?_, fun i hi s hrow => ?_⟩
  · exact ⟨(phaseClass_eq_idle_iff p).mpr ⟨h0, h31⟩, controlWord_idle h0 h31, exec_of_isPhIdle (isPhIdle_decodePh h0 h31)⟩
  · have hidle : i.isPhIdle = true := by
      rcases hrow with rfl | rfl | rfl | rfl | rfl | rfl | rfl | rfl | rfl <;> rfl
    exact exec_of_isPhIdle hidle s

end Sys2Proof.Machine

end

/-! ## The pure functions of the generator (R50, R51, R52) -/

section

namespace Sys2Proof.Machine

theorem lStep_zero (poly : LfsrWord) : lStep poly 0#32 = poly := by
  simp [lStep_eq]

theorem getLsbD_31_lStep (poly v : LfsrWord) : (lStep poly v).getLsbD 31 = (!v.getLsbD 0 && poly.getLsbD 31) := by
  rw [lStep_eq]
  cases v.getLsbD 0 <;> simp

/-- Settles O18: the two branches, the bit the shift leaves free, and the rule's examples by running the step. -/
theorem lStepShiftsAndFeedsBackOnZero : Obligations.LStepShiftsAndFeedsBackOnZero := by
  refine ⟨fun _ _ => lStep_of_odd, fun _ _ => lStep_of_even, getLsbD_31_lStep, fun poly => ?_,
    Config.params.poly_ne_zero, rfl, exec_lstep⟩
  exact ⟨lStep_zero poly, rfl, rfl, rfl, rfl, rfl, rfl⟩

/-- The test depends on the value through its low byte alone. -/
theorem bad_congr (mask : Byte) {v w : LfsrWord} (h : v.extractLsb' 0 8 = w.extractLsb' 0 8) : bad mask v = bad mask w := by
  rw [Bool.eq_iff_iff, bad_iff, bad_iff, h]

theorem testedBits_mask18 (b : Byte) : (testedBits 0x18#8 b == 0#8) = (!b.getLsbD 4 && !b.getLsbD 3) := by
  revert b; decide +kernel

theorem testedBits_mask0C (b : Byte) : (testedBits 0x0C#8 b == 0#8) = (!b.getLsbD 3 && !b.getLsbD 2) := by
  revert b; decide +kernel

/-- Settles O19: the masks' bits for every byte, the counts by running the test on the 256 bytes. -/
theorem goodnessTestReadsTwoBits : Obligations.GoodnessTestReadsTwoBits := by
  refine ⟨bad_iff, fun s => ?_, fun s => ?_, fun P => ?_, fun mask _ _ => bad_congr mask, ?_, ?_, ?_⟩
  · rw [bad, testedBits_mask18]; simp [lowByte]
  · rw [bad, testedBits_mask0C]; simp [lowByte]
  · rw [Config.Params.badMask]
    cases P.mask
    · exact .inl rfl
    · exact .inr rfl
  all_goals decide +kernel

theorem low_ne_zero_of_ne_multiple :
    ∀ {p : PhaseWord}, p ≠ 0#5 → p ≠ 8#5 → p ≠ 16#5 → p ≠ 24#5 → p.extractLsb' 0 3 ≠ 0#3 := by
  decide

theorem advEn_of_low_ne_zero {p : PhaseWord} (h : p.extractLsb' 0 3 ≠ 0#3) (mask : Byte) (v : LfsrWord) :
    advEn mask p v = false := by
  have hstart : p ≠ 0#5 := fun h0 => h (by rw [h0]; rfl)
  rw [Bool.eq_false_iff, ne_eq, advEn_iff]
  tauto

/-- Settles O20: the start, the checkpoints, and the words that are no multiple of 8. -/
theorem advanceConditionTruthTable : Obligations.AdvanceConditionTruthTable := by
  refine fun mask s => ⟨advEn_at_start mask s, fun p hp => ?_, fun p h0 h8 h16 h24 => ?_⟩
  · obtain rfl | rfl | rfl := hp <;> rfl
  · exact advEn_of_low_ne_zero (low_ne_zero_of_ne_multiple h0 h8 h16 h24) mask s

end Sys2Proof.Machine

end

/-! ## The space of the step: the values with no bit above POLY's highest (R55 (a) to (d), (f)) -/

section

namespace Sys2Proof.Machine

/-- The values below `2^(k+1)`, the set `V` of R55. -/
def stepSpace (k : Nat) : Set LfsrWord := {v | v.toNat < 2 ^ (k + 1)}

/-- A step halves the room a value needs, down to the room POLY needs. -/
theorem toNat_lStep_lt {poly v : LfsrWord} {m : Nat} (hpoly : poly.toNat < 2 ^ m) (hv : v.toNat < 2 ^ (m + 1)) :
    (lStep poly v).toNat < 2 ^ m := by
  have hshift : (v >>> 1).toNat < 2 ^ m := by
    rw [BitVec.toNat_ushiftRight, Nat.shiftRight_eq_div_pow]
    omega
  rw [lStep_eq]
  split
  · exact hshift
  · rw [BitVec.toNat_xor]
    exact Nat.xor_lt_two_pow hshift hpoly

theorem toNat_lStepN_lt {poly v : LfsrWord} {m n : Nat} (hpoly : poly.toNat < 2 ^ m) (hv : v.toNat < 2 ^ (m + n)) :
    (lStepN poly n v).toNat < 2 ^ m := by
  induction n generalizing m with
  | zero => exact hv
  | succ n ih =>
    have hroom : poly.toNat < 2 ^ (m + 1) := hpoly.trans (Nat.pow_lt_pow_succ Nat.one_lt_two)
    rw [lStepN_succ]
    exact toNat_lStep_lt hpoly (ih hroom (by rwa [Nat.add_right_comm]))

namespace HighestBit

variable {poly : LfsrWord} {k : Nat}

theorem le_31 (h : HighestBit poly k) : k ≤ 31 := by
  have hlt : 2 ^ k < 2 ^ 32 := h.1.trans_lt poly.isLt
  have := (Nat.pow_lt_pow_iff_right Nat.one_lt_two).mp hlt
  omega

theorem ne_zero (h : HighestBit poly k) : poly ≠ 0#32 := by
  rintro rfl
  exact absurd h.1 (Nat.not_le.mpr (Nat.two_pow_pos k))

theorem getLsbD_eq_true (h : HighestBit poly k) : poly.getLsbD k = true :=
  Nat.testBit_of_two_pow_le_and_two_pow_add_one_gt h.1 h.2

theorem exists_of_ne_zero (h : poly ≠ 0#32) : ∃ k, HighestBit poly k := by
  have hnat : poly.toNat ≠ 0 := fun h0 => h (BitVec.eq_of_toNat_eq h0)
  exact ⟨poly.toNat.log2, Nat.log2_self_le hnat, Nat.lt_log2_self⟩

theorem mapsTo_lStep (h : HighestBit poly k) : Set.MapsTo (lStep poly) (stepSpace k) (stepSpace k) :=
  fun _ hv => toNat_lStep_lt h.2 (Nat.lt_trans hv (Nat.pow_lt_pow_succ Nat.one_lt_two))

/-- The top bit of a step tells which bit was shifted out: R55 (c)'s test of `t[k]`. -/
theorem getLsbD_lStep (h : HighestBit poly k) {v : LfsrWord} (hv : v ∈ stepSpace k) :
    (lStep poly v).getLsbD k = !v.getLsbD 0 := by
  have htop : v.getLsbD (1 + k) = false := by
    rw [Nat.add_comm]
    exact Nat.testBit_lt_two_pow hv
  rw [lStep_eq]
  cases v.getLsbD 0 <;> simp [htop, h.getLsbD_eq_true]

end HighestBit

/-- A value is the bit shifted out and the rest. -/
theorem eq_of_shifted_eq {v w : LfsrWord} (h0 : v.getLsbD 0 = w.getLsbD 0) (hshift : v >>> 1 = w >>> 1) : v = w := by
  apply BitVec.eq_of_getLsbD_eq
  intro i _
  cases i with
  | zero => exact h0
  | succ i => simpa [Nat.add_comm] using congrArg (BitVec.getLsbD · i) hshift

theorem HighestBit.injOn_lStep {poly : LfsrWord} {k : Nat} (h : HighestBit poly k) :
    Set.InjOn (lStep poly) (stepSpace k) := by
  intro v hv w hw heq
  have h0 : v.getLsbD 0 = w.getLsbD 0 := by
    rw [← Bool.not_inj_iff, ← h.getLsbD_lStep hv, ← h.getLsbD_lStep hw, heq]
  apply eq_of_shifted_eq h0
  rw [lStep_eq, lStep_eq, h0] at heq
  split at heq
  · exact heq
  · exact (BitVec.xor_left_inj poly).mp heq

theorem HighestBit.bijOn_lStep {poly : LfsrWord} {k : Nat} (h : HighestBit poly k) :
    Set.BijOn (lStep poly) (stepSpace k) (stepSpace k) :=
  ((Set.toFinite _).injOn_iff_bijOn_of_mapsTo h.mapsTo_lStep).mp h.injOn_lStep

/-- Settles O24: a step needs one bit less for the value it shifts, and never more than POLY has. -/
theorem stepSpaceIsClosedAndEntered : Obligations.StepSpaceIsClosedAndEntered := by
  refine fun poly k h => ⟨fun v hv => h.mapsTo_lStep hv, fun v => toNat_lStepN_lt h.2 ?_⟩
  rw [show k + 1 + (31 - k) = 32 by have := h.le_31; omega]
  exact v.isLt

/-- Settles O25: the step maps its space into itself, one to one because its top bit tells the bit shifted out. -/
theorem stepIsABijectionOnItsSpace : Obligations.StepIsABijectionOnItsSpace := by
  intro poly k h t ht
  obtain ⟨s, hs, hst⟩ := h.bijOn_lStep.surjOn ht
  refine ⟨s, ⟨hs, hst⟩, ?_⟩
  rintro s' ⟨hs', hst'⟩
  exact h.injOn_lStep hs' hs (hst'.trans hst.symm)

/-! The cycle through the seed (R55 (d), (f)), by the library's periodic points. -/

theorem lStepN_eq_iterate (poly : LfsrWord) (n : Nat) (v : LfsrWord) : lStepN poly n v = (lStep poly)^[n] v := by
  induction n with
  | zero => rfl
  | succ n ih => rw [lStepN_succ, ih, Function.iterate_succ_apply']

theorem zero_mem_stepSpace (k : Nat) : 0#32 ∈ stepSpace k := Nat.two_pow_pos (k + 1)

theorem card_stepSpace_le (k : Nat) : Nat.card (stepSpace k) ≤ 2 ^ (k + 1) := by
  have hinj : Function.Injective fun v : stepSpace k => (⟨v.1.toNat, v.2⟩ : Fin (2 ^ (k + 1))) :=
    fun _ _ h => Subtype.ext (BitVec.eq_of_toNat_eq (Fin.mk.inj_iff.mp h))
  simpa using Nat.card_le_card_of_injective _ hinj

namespace HighestBit

variable {poly : LfsrWord} {k : Nat}

theorem minimalPeriod_restrict (h : HighestBit poly k) :
    Function.minimalPeriod h.mapsTo_lStep.restrict ⟨0#32, zero_mem_stepSpace k⟩ =
      Function.minimalPeriod (lStep poly) 0#32 := by
  rw [Function.minimalPeriod_eq_minimalPeriod_iff]
  intro n
  rw [Function.IsPeriodicPt, Function.IsPeriodicPt, Function.IsFixedPt, Function.IsFixedPt, Subtype.ext_iff,
    Set.MapsTo.coe_iterate_restrict]

theorem minimalPeriod_le (h : HighestBit poly k) : Function.minimalPeriod (lStep poly) 0#32 ≤ 2 ^ (k + 1) := by
  have : Fintype (stepSpace k) := Fintype.ofFinite _
  rw [← h.minimalPeriod_restrict]
  exact Function.minimalPeriod_le_card.trans (Nat.card_eq_fintype_card.symm.trans_le (card_stepSpace_le k))

theorem zero_mem_periodicPts (h : HighestBit poly k) : 0#32 ∈ Function.periodicPts (lStep poly) := by
  have hinj : Function.Injective h.mapsTo_lStep.restrict := h.mapsTo_lStep.restrict_inj.mpr h.injOn_lStep
  rw [← Function.minimalPeriod_pos_iff_mem_periodicPts, ← h.minimalPeriod_restrict]
  exact Function.minimalPeriod_pos_of_mem_periodicPts (hinj.mem_periodicPts _)

theorem minimalPeriod_ne_one (h : HighestBit poly k) : Function.minimalPeriod (lStep poly) 0#32 ≠ 1 := by
  rw [ne_eq, Function.minimalPeriod_eq_one_iff_isFixedPt, Function.IsFixedPt, lStep_zero]
  exact h.ne_zero

end HighestBit

/-- Settles O26: the least number of steps back to 0 is the seed's minimal period, at most the size of the space. -/
theorem seedSequenceReturnsToZero : Obligations.SeedSequenceReturnsToZero := by
  intro poly k h
  have hpos := Function.minimalPeriod_pos_of_mem_periodicPts h.zero_mem_periodicPts
  have hone := h.minimalPeriod_ne_one
  refine ⟨Function.minimalPeriod (lStep poly) 0#32, by omega, h.minimalPeriod_le, ?_, fun n hn hlt => ?_⟩ <;>
    rw [lStepN_eq_iterate]
  · exact Function.isPeriodicPt_minimalPeriod _ _
  · exact Function.not_isPeriodicPt_of_pos_of_lt_minimalPeriod hn.ne' hlt

/-- Settles O28: every value of the seed's cycle has the seed's period, which is not 1. -/
theorem seedSequenceNeverSettles : Obligations.SeedSequenceNeverSettles := by
  rintro P v ⟨n, rfl⟩ hfixed
  obtain ⟨k, h⟩ := HighestBit.exists_of_ne_zero P.poly_ne_zero
  apply h.minimalPeriod_ne_one
  rw [← Function.minimalPeriod_apply_iterate h.zero_mem_periodicPts n, ← lStepN_eq_iterate]
  exact Function.minimalPeriod_eq_one_iff_isFixedPt.mpr hfixed

end Sys2Proof.Machine

end

/-! ## The fixed point of the step (R55 (e)) -/

section

namespace Sys2Proof.Machine

/-- The exclusive-or of the bits of `v` at index `i` and above. -/
def parityFrom (v : LfsrWord) (i : Nat) : Bool := decide (setBitsFrom v i % 2 = 1)

/-- Of the indices from `i` up, take off `i` itself. -/
theorem countP_range_from (p : Nat → Bool) (n i : Nat) :
    (List.range n).countP (fun j => decide (i ≤ j) && p j) =
      (List.range n).countP (fun j => decide (i + 1 ≤ j) && p j) + if i < n then (p i).toNat else 0 := by
  induction n with
  | zero => rfl
  | succ n ih =>
    rw [List.range_succ, List.countP_append, List.countP_append, ih, List.countP_singleton, List.countP_singleton]
    obtain hlt | rfl | hgt := Nat.lt_trichotomy i n
    · simp [hlt, hlt.le, hlt.trans n.lt_succ_self, Nat.add_right_comm]
    · cases p i <;> simp
    · simp [hgt.not_ge, hgt.not_gt]

theorem setBitsFrom_32 (v : LfsrWord) : setBitsFrom v 32 = 0 := by
  rw [setBitsFrom, List.countP_eq_zero]
  intro j hj
  simp [List.mem_range.mp hj]

theorem setBitsFrom_of_lt (v : LfsrWord) {i : Nat} (hi : i < 32) :
    setBitsFrom v i = setBitsFrom v (i + 1) + (v.getLsbD i).toNat := by
  rw [setBitsFrom, countP_range_from, if_pos hi, ← setBitsFrom]

theorem parityFrom_32 (v : LfsrWord) : parityFrom v 32 = false := by
  rw [parityFrom, setBitsFrom_32]; rfl

theorem parityFrom_of_lt (v : LfsrWord) {i : Nat} (hi : i < 32) :
    parityFrom v i = (parityFrom v (i + 1) ^^ v.getLsbD i) := by
  rw [parityFrom, parityFrom, setBitsFrom_of_lt v hi]
  cases v.getLsbD i
  · simp
  · rw [Bool.toNat_true, Bool.xor_true, ← decide_not, decide_eq_decide]
    omega

/-- The candidate of R55 (e). -/
def parityWord (poly : LfsrWord) : LfsrWord := BitVec.ofFnLE fun i : Fin 32 => parityFrom poly i

theorem getLsbD_parityWord (poly : LfsrWord) {i : Nat} (hi : i ≤ 32) : (parityWord poly).getLsbD i = parityFrom poly i := by
  rw [parityWord, BitVec.getLsbD_ofFnLE]
  split
  case isTrue => rfl
  case isFalse hnlt => rw [Nat.le_antisymm hi (Nat.not_lt.mp hnlt), parityFrom_32]

/-- A value equal to its own shift is 0. -/
theorem getLsbD_zero_of_lStep_eq {poly v : LfsrWord} (h : lStep poly v = v) : v.getLsbD 0 = false := by
  by_contra hodd
  rw [Bool.not_eq_false] at hodd
  have hnat : v.toNat / 2 = v.toNat := by
    conv_rhs => rw [← h, lStep_of_odd hodd, BitVec.toNat_ushiftRight, Nat.shiftRight_eq_div_pow, Nat.pow_one]
  have hzero : v = 0#32 := BitVec.eq_of_toNat_eq (by rw [BitVec.toNat_zero]; omega)
  rw [hzero] at hodd
  cases hodd

/-- What it is to be fixed, bit by bit: an even value whose every bit differs from the next where POLY has a bit. -/
theorem lStep_eq_self_iff (poly v : LfsrWord) :
    lStep poly v = v ↔ v.getLsbD 0 = false ∧ ∀ i < 32, v.getLsbD i = (v.getLsbD (i + 1) ^^ poly.getLsbD i) := by
  have hbit (i : Nat) : ((v >>> 1) ^^^ poly).getLsbD i = (v.getLsbD (i + 1) ^^ poly.getLsbD i) := by
    rw [BitVec.getLsbD_xor, BitVec.getLsbD_ushiftRight, Nat.add_comm]
  constructor
  · intro h
    have h0 := getLsbD_zero_of_lStep_eq h
    rw [lStep_of_even h0] at h
    exact ⟨h0, fun i _ => by rw [← hbit, h]⟩
  · rintro ⟨h0, hrec⟩
    rw [lStep_of_even h0]
    exact BitVec.eq_of_getLsbD_eq fun i hi => (hbit i).trans (hrec i hi).symm

theorem getLsbD_of_lStep_eq {poly v : LfsrWord} (h : lStep poly v = v) {i : Nat} (hi : i ≤ 32) :
    v.getLsbD i = parityFrom poly i := by
  obtain ⟨-, hrec⟩ := (lStep_eq_self_iff poly v).mp h
  induction hi using Nat.decreasingInduction with
  | self => exact (v.getLsbD_of_ge 32 le_rfl).trans (parityFrom_32 poly).symm
  | of_succ j hj ih => rw [hrec j hj, ih, parityFrom_of_lt poly hj]

theorem parityFrom_zero_eq_false_iff (poly : LfsrWord) : parityFrom poly 0 = false ↔ setBitsFrom poly 0 % 2 = 0 := by
  rw [parityFrom, decide_eq_false_iff_not, Nat.mod_two_not_eq_one]

/-- Settles O27: a fixed point's bits are POLY's parities from the top down, and bit 0 must be clear. -/
theorem fixedPointExactlyWhenSetBitCountIsEven : Obligations.FixedPointExactlyWhenSetBitCountIsEven := by
  refine fun poly => ⟨⟨?_, fun heven => ⟨parityWord poly, ?_⟩⟩, fun g hg i hi => ?_⟩
  · rintro ⟨g, hg⟩
    rw [← parityFrom_zero_eq_false_iff, ← getLsbD_of_lStep_eq hg (Nat.zero_le 32)]
    exact getLsbD_zero_of_lStep_eq hg
  · rw [lStep_eq_self_iff, getLsbD_parityWord poly (Nat.zero_le 32)]
    refine ⟨(parityFrom_zero_eq_false_iff poly).mpr heven, fun i hi => ?_⟩
    rw [getLsbD_parityWord poly hi.le, getLsbD_parityWord poly hi, parityFrom_of_lt poly hi]
  · rw [getLsbD_of_lStep_eq hg hi.le, parityFrom, decide_eq_true_iff]

end Sys2Proof.Machine

end

/-! ## Advances counted from the Frame Counter (R56) -/

section

namespace Sys2Proof.Machine

theorem toNat_atStart_le_toNat_advEn (mask : Byte) (p : PhaseWord) (v : LfsrWord) :
    (atStart p).toNat ≤ (advEn mask p v).toNat := by
  rw [advEn]
  cases atStart p <;> simp

theorem low_ne_zero_of_toNat_mod : ∀ {p : PhaseWord}, p.toNat % 8 ≠ 0 → p.extractLsb' 0 3 ≠ 0#3 := by
  decide

/-- A tick can advance only at a multiple of 8. -/
theorem toNat_advEn_le (mask : Byte) (p : PhaseWord) (v : LfsrWord) :
    (advEn mask p v).toNat ≤ if p.toNat % 8 = 0 then 1 else 0 := by
  split
  case isTrue => exact Bool.toNat_le _
  case isFalse h => rw [advEn_of_low_ne_zero (low_ne_zero_of_toNat_mod h)]; rfl

theorem mandatoryCount_le_advanceCount (P : Config.Params) (n : Nat) (s : State) :
    mandatoryCount P n s ≤ advanceCount P n s := by
  induction n generalizing s with
  | zero => exact le_rfl
  | succ n ih => exact Nat.add_le_add (toNat_atStart_le_toNat_advEn _ _ _) (ih _)

/-- Advances fall at most on the ticks that bring the number of ticks to a multiple of 8, counted from FC = 0. -/
theorem advanceCount_add_fc_div_le (P : Config.Params) (n : Nat) (s : State) :
    advanceCount P n s + s.fc.toNat / 8 ≤ (s.fc.toNat + n) / 8 := by
  induction n generalizing s with
  | zero => simp [advanceCount]
  | succ n ih =>
    have hfc := s.fc.isLt
    have hnext := ih (s.tick P)
    have hadv := toNat_advEn_le P.badMask (phaseWord s.fc) s.lfsr
    rw [State.toNat_fc_tick] at hnext
    rw [toNat_phaseWord] at hadv
    rw [advanceCount]
    split at hadv <;> omega

/-- Settles O32: the one mandatory advance of a period from below, the four multiples of 8 from above. -/
theorem advancesPerPeriodAreOneToFour : Obligations.AdvancesPerPeriodAreOneToFour := by
  intro P s
  obtain ⟨-, hmandatory, -⟩ := periodHasOneLoadAndOneMandatoryAdvance P s
  have hlow := mandatoryCount_le_advanceCount P 32 s
  have hhigh := advanceCount_add_fc_div_le P 32 s
  omega

end Sys2Proof.Machine

end

/-! ## What writes LFSR (R10, R53) -/

section

namespace Sys2Proof.Machine

theorem State.tick_lfsr_eq_or (P : Config.Params) (s : State) :
    (s.tick P).lfsr = s.lfsr ∨ (s.tick P).lfsr = lStep P.poly s.lfsr := by
  rw [State.tick_lfsr]
  exact (ite_eq_or_eq ..).symm

theorem State.resample_lfsr_eq_or (P : Config.Params) (s : State) :
    (s.resample P).lfsr = s.lfsr ∨ (s.resample P).lfsr = lStep P.poly s.lfsr := by
  rw [State.resample_eq, State.setLfsr_lfsr, resampled_eq]
  exact (ite_eq_or_eq ..).symm

/-- Settles O39: by effect, a TICK and a checkpoint step LFSR or leave it, and no load, increment or read writes it. -/
theorem onlyAStepOrResetWritesLfsr : Obligations.OnlyAStepOrResetWritesLfsr := by
  intro i s t h
  cases execEffect_of_exec h with
  | resets b => exact .inr (.inr ⟨rfl, b, rfl⟩)
  | ticks => exact (s.tick_lfsr_eq_or _).imp_right fun hstep => .inl ⟨hstep, by simp⟩
  | steps hi => exact .inr (.inl ⟨rfl, List.subset_def.mp (by simp) hi⟩)
  | resamples hi =>
    exact (s.resample_lfsr_eq_or _).imp_right fun hstep => .inl ⟨hstep, List.subset_def.mp (by simp) hi⟩
  | stepsAndLoads => exact .inr (.inl ⟨rfl, by simp⟩)
  | increments | reads | loads | keeps => exact .inl rfl

end Sys2Proof.Machine

end

/-! ## The duty mapping, and what a load and a read answer (R59 to R63) -/

section

namespace Sys2Proof.Machine

/-- Settles O22: the table by running the mapping on the 256 bytes. -/
theorem dutyMapTableByNibble : Obligations.DutyMapTableByNibble := by
  unfold Obligations.DutyMapTableByNibble
  decide +kernel

/-- The low four bits of a byte do not matter to the mapping (R59): the table reads the high nibble alone. -/
theorem dMap_congr {b c : Byte} (h : b.extractLsb' 4 4 = c.extractLsb' 4 4) : dMap b = dMap c := by
  rw [dutyMapTableByNibble b, dutyMapTableByNibble c, h]

theorem dMap_of_saturating {b : Byte} (h : b.getLsbD 4 = true) : dMap b = 0xFF#8 := by
  rw [dMap_eq, if_pos h]

theorem dMap_of_not_saturating {b : Byte} (h : b.getLsbD 4 = false) : dMap b = (b &&& 0xF0#8) ||| 0x0F#8 := by
  rw [dMap_eq, h, if_neg Bool.false_ne_true]

theorem dMap_mem_loadedDuties (b : Byte) : dMap b ∈ loadedDuties := by
  revert b; decide +kernel

/-- Each of the nine values is mapped to itself, so each is taken (R59). -/
theorem dMap_of_mem_loadedDuties : ∀ {d : Byte}, d ∈ loadedDuties → dMap d = d := by
  decide +kernel

theorem exists_dMap_eq_iff (d : Byte) : (∃ b : Byte, dMap b = d) ↔ d ∈ loadedDuties := by
  constructor
  · rintro ⟨b, rfl⟩
    exact dMap_mem_loadedDuties b
  · exact fun hd => ⟨d, dMap_of_mem_loadedDuties hd⟩

/-- Settles O23: the two branches of the mapping, its values, the bits it reads, and the count by running it on the 256 bytes. -/
theorem dutyMapTakesNineValues : Obligations.DutyMapTakesNineValues :=
  ⟨fun _ => dMap_of_saturating, fun _ => dMap_of_not_saturating, exists_dMap_eq_iff, fun _ _ => dMap_congr, by decide +kernel⟩

/-- Replacing the low nibble by ones, as arithmetic. -/
theorem and_F0_or_0F_eq_ofNat (b : Byte) : (b &&& 0xF0#8) ||| 0x0F#8 = BitVec.ofNat 8 (b.toNat / 16 * 16 + 15) := by
  revert b; decide +kernel

theorem toNat_lowByte (v : LfsrWord) : (lowByte v).toNat = v.toNat % 256 := by
  simp [lowByte]

/-- The mapping of an LFSR's low byte as arithmetic on the LFSR's value (R59, R61). -/
theorem dMap_lowByte (v : LfsrWord) :
    dMap (lowByte v) = if v.getLsbD 4 then 0xFF#8 else BitVec.ofNat 8 (v.toNat % 256 / 16 * 16 + 15) := by
  rw [dMap_eq, getLsbD_four_lowByte, and_F0_or_0F_eq_ofNat, toNat_lowByte]

/-- Settles O16: the load writes DUTY alone, with the mapping of the low byte. -/
theorem dloadIsAPureFunctionOfTheLowByte : Obligations.DloadIsAPureFunctionOfTheLowByte := by
  intro s
  rw [exec_dload, State.loadDuty_eq, dMap_lowByte]; rfl

/-- Settles O17: the read writes the record alone, with DUTY. -/
theorem dreadReturnsDutyAndChangesNoRegister : Obligations.DreadReturnsDutyAndChangesNoRegister := exec_dread

theorem fill_le_dMap (b : Byte) : 0x0F#8 ≤ dMap b := by
  revert b; decide +kernel

/-- Settles O60: the reset value and the saturated value are the two ends of OnCount, and a loaded value lies between `0x0F` and
`0xFF`, where OnCount is monotone. -/
theorem onCountIsOffAtResetAndFullWhenSaturated : Obligations.OnCountIsOffAtResetAndFullWhenSaturated := by
  refine fun onCount hadm => ⟨hadm.off, fun s t h hsat => ?_, fun s t h => ?_⟩ <;> cases h
  · have hduty : s.loadDuty.dutyPort = 0xFF#8 := dMap_of_saturating (by rwa [getLsbD_four_lowByte])
    rw [hduty, hadm.full]
  · have hfull : s.loadDuty.dutyPort ≤ 0xFF#8 := BitVec.le_def.mpr (Nat.le_of_lt_succ (dMap _).isLt)
    exact ⟨hadm.monotone _ _ (fill_le_dMap _), hadm.full ▸ hadm.monotone _ _ hfull⟩

end Sys2Proof.Machine

end

/-! ## What writes DUTY, and that the generator never reads it (R12, R26, R61, R62) -/

section

namespace Sys2Proof.Machine

@[simp] theorem State.resample_duty (P : Config.Params) (s : State) : (s.resample P).duty = s.duty := by
  rw [State.resample_eq, State.setLfsr_duty]

/-- A TICK that writes DUTY is one of phase word 31, and what it loads is the mapping of the LFSR it leaves (R41, R61). -/
theorem State.tick_duty_eq_or (P : Config.Params) (s : State) :
    (s.tick P).duty = s.duty ∨ ((s.tick P).duty = dMap (lowByte (s.tick P).lfsr) ∧ (s.tick P).fc = 31#5) := by
  rw [State.tick_duty_of_new_lfsr, State.tick_fc]
  split
  case isTrue hload => exact .inr ⟨rfl, hload⟩
  case isFalse => exact .inl rfl

/-- Settles O41: by effect, a load writes DUTY, a TICK loads or leaves it, RESET zeroes it, and nothing else writes it. -/
theorem onlyALoadOrResetWritesDuty : Obligations.OnlyALoadOrResetWritesDuty := by
  intro i s t h
  cases execEffect_of_exec h with
  | resets b => exact .inr (.inr ⟨rfl, b, rfl⟩)
  | ticks => exact (s.tick_duty_eq_or _).imp_right fun ⟨hduty, hfc⟩ => .inl ⟨hduty, .inr ⟨rfl, hfc⟩⟩
  | loads hi => exact .inr (.inl ⟨rfl, .inl (List.subset_def.mp (by simp) hi)⟩)
  | stepsAndLoads => exact .inr (.inl ⟨rfl, .inl (by simp)⟩)
  | resamples => exact .inl (s.resample_duty _)
  | increments | reads | steps | keeps => exact .inl rfl

/-- The two states agree on what the generator reads: LFSR and FC (R26). -/
structure State.SameGenerator (s s' : State) : Prop where
  lfsr : s.lfsr = s'.lfsr
  fc : s.fc = s'.fc

namespace State.SameGenerator

variable {s s' : State}

theorem stepLfsr (h : s.SameGenerator s') (P : Config.Params) : (s.stepLfsr P).SameGenerator (s'.stepLfsr P) where
  lfsr := congrArg (lStep P.poly) h.lfsr
  fc := h.fc

theorem resample (h : s.SameGenerator s') (P : Config.Params) : (s.resample P).SameGenerator (s'.resample P) where
  lfsr := by rw [State.resample_eq, State.resample_eq]; exact congrArg (resampled P) h.lfsr
  fc := by rw [State.resample_fc, State.resample_fc, h.fc]

theorem incFc (h : s.SameGenerator s') : s.incFc.SameGenerator s'.incFc where
  lfsr := h.lfsr
  fc := congrArg phaseWord h.fc

theorem tick (h : s.SameGenerator s') (P : Config.Params) : (s.tick P).SameGenerator (s'.tick P) where
  lfsr := by rw [State.tick_lfsr, State.tick_lfsr, h.lfsr, h.fc]
  fc := by rw [State.tick_fc, State.tick_fc, h.fc]

theorem exec {i : Instr} {t t' : State} (h : s.SameGenerator s') (ht : Machine.exec i s = .next t)
    (ht' : Machine.exec i s' = .next t') : t.SameGenerator t' := by
  cases i with
  | reset b => cases ht; cases ht'; exact ⟨rfl, rfl⟩
  | tick => cases ht; cases ht'; exact h.tick _
  | fcinc => cases ht; cases ht'; exact h.incFc
  | phStart | lstep => cases ht; cases ht'; exact h.stepLfsr _
  | phCheck08 | phCheck10 | phCheck18 => cases ht; cases ht'; exact h.resample _
  | lstepDload => cases ht; cases ht'; exact ⟨(h.stepLfsr _).lfsr, h.fc⟩
  | _ => cases ht; cases ht'; exact ⟨h.lfsr, h.fc⟩

end State.SameGenerator

/-- Settles O42: each operation on the state carries agreement on LFSR and FC over, and an instruction is one such operation. -/
theorem dutyNeverFeedsBackIntoTheGenerator : Obligations.DutyNeverFeedsBackIntoTheGenerator := by
  intro i s s' t t' hlfsr hfc ht ht'
  have h : s.SameGenerator s' := ⟨hlfsr, hfc⟩
  obtain ⟨hlfsr', hfc'⟩ := h.exec ht ht'
  exact ⟨hlfsr', hfc'⟩

end Sys2Proof.Machine

end

/-! ## A flicker period: what it loads, and DUTY between two loads (R66, R67) -/

section

namespace Sys2Proof.Machine

/-- A run of ticks writes the three registers and nothing else. -/
theorem State.ticks_eq_registers (P : Config.Params) (n : Nat) (s : State) :
    s.ticks P n = { s with fc := (s.ticks P n).fc, lfsr := (s.ticks P n).lfsr, duty := (s.ticks P n).duty } := by
  induction n generalizing s with
  | zero => rfl
  | succ n ih =>
    rw [State.ticks_succ, ih, State.tick_eq_registers]

theorem State.ticks_duty_of_no_load {P : Config.Params} {n : Nat} {s : State} (h : loadCount P n s = 0) :
    (s.ticks P n).duty = s.duty := by
  induction n generalizing s with
  | zero => rfl
  | succ n ih =>
    rw [loadCount, Nat.add_eq_zero_iff, Bool.toNat_eq_zero, Bool.eq_false_iff, ne_eq, loadEn_iff] at h
    obtain ⟨hfirst, hrest⟩ := h
    rw [State.ticks_succ, ih hrest, State.tick_duty]
    exact if_neg hfirst

theorem State.ticks_lfsr_of_no_advance {P : Config.Params} {n : Nat} {s : State} (h : advanceCount P n s = 0) :
    (s.ticks P n).lfsr = s.lfsr := by
  induction n generalizing s with
  | zero => rfl
  | succ n ih =>
    rw [advanceCount, Nat.add_eq_zero_iff, Bool.toNat_eq_zero, Bool.eq_false_iff] at h
    obtain ⟨hfirst, hrest⟩ := h
    rw [State.ticks_succ, ih hrest, State.tick_lfsr]
    exact if_neg hfirst

/-- Settles O36: from FC = 31 the first load is that of the 32nd tick. -/
theorem dutyHoldsBetweenLoads : Obligations.DutyHoldsBetweenLoads := by
  intro P n s hfc hn
  have hloads := loadCount_add_fc_div P n s
  rw [hfc, show (31#5).toNat = 31 from rfl] at hloads
  exact State.ticks_duty_of_no_load (by omega)

/-- Ticks that reach no multiple of 8 leave LFSR (R49). -/
theorem State.ticks_lfsr_of_no_multiple {P : Config.Params} {n : Nat} {s : State} (h : (s.fc.toNat + n) / 8 = s.fc.toNat / 8) :
    (s.ticks P n).lfsr = s.lfsr := by
  have hadv := advanceCount_add_fc_div_le P n s
  exact State.ticks_lfsr_of_no_advance (by omega)

theorem State.fc_ticks_succ (P : Config.Params) (n : Nat) (s : State) : (s.ticks P (n + 1)).fc = (s.ticks P n).fc + 1#5 := by
  rw [State.ticks_last, State.tick_fc]

theorem eq_check_of_toNat : ∀ {p : PhaseWord}, p.toNat % 8 = 0 → p.toNat ≠ 0 → p = 8#5 ∨ p = 16#5 ∨ p = 24#5 := by
  decide

/-- A tick to one of the three checkpoints resamples (R47). -/
theorem State.tick_lfsr_of_check {P : Config.Params} {s : State} (hmod : (s.tick P).fc.toNat % 8 = 0)
    (hpos : (s.tick P).fc.toNat ≠ 0) : (s.tick P).lfsr = resampled P s.lfsr := by
  obtain ⟨-, hcheck, -⟩ := advanceConditionTruthTable P.badMask s.lfsr
  rw [State.tick_lfsr, ← State.tick_fc P, hcheck _ (eq_check_of_toNat hmod hpos), resampled_eq]

/-- The eight ticks from phase word 0, 8 or 16 to the next checkpoint hold its one resample (R47, R49). -/
theorem State.ticks_eight_lfsr {P : Config.Params} {s : State} {k : Nat} (hfc : s.fc.toNat = 8 * k) (hk : k < 3) :
    (s.ticks P 8).lfsr = resampled P s.lfsr := by
  have hcheck : ((s.ticks P 7).tick P).fc.toNat = 8 * (k + 1) := by
    rw [← State.ticks_last, State.toNat_fc_ticks]
    omega
  have hidle : (s.ticks P 7).lfsr = s.lfsr := State.ticks_lfsr_of_no_multiple (by omega)
  rw [State.ticks_last, State.tick_lfsr_of_check (by omega) (by omega), hidle]

/-- The mandatory advance (R46). -/
theorem State.tick_lfsr_of_start {P : Config.Params} {s : State} (hfc : s.fc = 31#5) : (s.tick P).lfsr = lStep P.poly s.lfsr := by
  rw [State.tick_lfsr, hfc]
  exact if_pos (advEn_at_start _ _)

/-- A period from phase word 31 is the mandatory advance, eight ticks to each checkpoint, and seven ticks to the load (R67). -/
theorem State.ticks_period_lfsr {P : Config.Params} {s : State} (hfc : s.fc = 31#5) :
    (s.ticks P 32).lfsr = periodValue P s.lfsr := by
  have hfc0 : (s.tick P).fc.toNat = 8 * 0 := by rw [State.tick_fc, hfc]; rfl
  have hfc8 : ((s.tick P).ticks P 8).fc.toNat = 8 * 1 := by rw [State.toNat_fc_ticks, hfc0]
  have hfc16 : (((s.tick P).ticks P 8).ticks P 8).fc.toNat = 8 * 2 := by rw [State.toNat_fc_ticks, hfc8]
  have hfc24 : ((((s.tick P).ticks P 8).ticks P 8).ticks P 8).fc.toNat = 24 := by rw [State.toNat_fc_ticks, hfc16]
  have hsplit : s.ticks P 32 = ((((s.tick P).ticks P 8).ticks P 8).ticks P 8).ticks P 7 := by
    simp only [← State.ticks_add, ← State.ticks_succ]
  rw [hsplit, State.ticks_lfsr_of_no_multiple (by rw [hfc24]), State.ticks_eight_lfsr hfc16 (by decide),
    State.ticks_eight_lfsr hfc8 (by decide), State.ticks_eight_lfsr hfc0 (by decide), State.tick_lfsr_of_start hfc]
  rfl

/-- The 32nd tick from phase word 31 is a load, of the LFSR it leaves (R61). -/
theorem State.ticks_period_duty {P : Config.Params} {s : State} (hfc : s.fc = 31#5) :
    (s.ticks P 32).duty = dMap (lowByte (s.ticks P 32).lfsr) := by
  have hload : (s.ticks P 31).fc + 1#5 = 31#5 := by
    rw [← State.fc_ticks_succ, ← hfc]
    exact s.fc_ticks_periods P 1
  rw [State.ticks_last, State.tick_duty_of_new_lfsr, if_pos hload]

/-- Settles O35: the three registers after the period, and the rest as it was. -/
theorem periodLoadsTheResampledValue : Obligations.PeriodLoadsTheResampledValue := by
  intro P s hfc
  have hperiod : (s.ticks P 32).fc = s.fc := s.fc_ticks_periods P 1
  rw [State.ticks_eq_registers, State.ticks_period_duty hfc, State.ticks_period_lfsr hfc, hperiod]

end Sys2Proof.Machine

end

/-! ## Every operation and every step answers a next state (R68) -/

section

namespace Sys2Proof.Machine

theorem exec_answers_next (i : Instr) (s : State) : ∃ t, exec i s = .next t := by
  cases i <;> exact ⟨_, rfl⟩

theorem perform_answers_next (a : Action) (s : State) : ∃ t, perform a s = .next t := by
  cases a with
  | run i => exact exec_answers_next i s
  | overflow | serviceBegin | serviceSteps | serviceEnd => exact ⟨_, rfl⟩

theorem step_answers_next (s : State) : ∃ t, step s = .next t := by
  cases hinput : s.input with
  | nil => exact ⟨s, step_of_nil hinput⟩
  | cons m rest =>
    rw [step_of_cons hinput]
    exact perform_answers_next _ _

/-- Settles O38: every arm of `exec` is a `next`, and a step is an operation's, a delivery move's, or HOLD. -/
theorem everyOperationAndStepAnswersNext : Obligations.EveryOperationAndStepAnswersNext :=
  ⟨exec_answers_next, step_answers_next⟩

end Sys2Proof.Machine

end

/-! ## The moves of the finer delivery model, and its service as one TICK (R70, R72, R74) -/

section

namespace Sys2Proof.Machine

/-! Each move of the service where it is enabled, and where it is not. -/

theorem State.beginService_of_pend {s : State} (hp : s.pend = true) (hs : s.service = .idle) :
    s.beginService = (s.setPend false).setService .begun :=
  if_pos (by rw [hp, State.busy_eq_false.mpr hs]; rfl)

theorem State.beginService_of_not_enabled {s : State} (h : s.pend = false ∨ s.service ≠ .idle) : s.beginService = s := by
  obtain ⟨hp, hs, -⟩ | ⟨-, heq⟩ := s.beginService_cases
  · simp [hp, hs] at h
  · exact heq

theorem State.stepService_of_begun (P : Config.Params) {s : State} (hs : s.service = .begun) :
    s.stepService P = (s.tick P).setService .stepped :=
  if_pos hs

theorem State.stepService_of_not_begun (P : Config.Params) {s : State} (hs : s.service ≠ .begun) : s.stepService P = s :=
  if_neg hs

theorem State.endService_of_stepped {s : State} (hs : s.service = .stepped) : s.endService = s.setService .idle :=
  if_pos hs

theorem State.endService_of_not_stepped {s : State} (hs : s.service ≠ .stepped) : s.endService = s :=
  if_neg hs

/-- Settles O50: each move is taken off the schedule and does what it does where it is enabled, or nothing. -/
theorem deliveryMovesFollowTheFinerModel : Obligations.DeliveryMovesFollowTheFinerModel := by
  refine fun s rest => ⟨fun hinput => ?_, fun hinput hp hs => ?_, fun hinput hnot => ?_, fun hinput hs t ht => ?_,
    fun hinput hs => ?_, fun hinput hs => ?_, fun hinput hs => ?_⟩ <;> rw [step_of_cons hinput]
  · rfl
  · exact congrArg Host.Outcome.next (State.beginService_of_pend (s := s.setInput rest) hp hs)
  · exact congrArg Host.Outcome.next (State.beginService_of_not_enabled (s := s.setInput rest) hnot)
  · cases ht
    exact congrArg Host.Outcome.next (State.stepService_of_begun _ (s := s.setInput rest) hs)
  · exact congrArg Host.Outcome.next (State.stepService_of_not_begun _ (s := s.setInput rest) hs)
  · exact congrArg Host.Outcome.next (State.endService_of_stepped (s := s.setInput rest) hs)
  · exact congrArg Host.Outcome.next (State.endService_of_not_stepped (s := s.setInput rest) hs)

theorem State.quiet_eq_false_iff {s : State} : s.quiet = false ↔ s.pend = true ∨ s.service ≠ .idle := by
  rw [← Bool.not_eq_true, State.quiet_iff, not_and_or, Bool.not_eq_false]

/-- Settles O49: the event word is delivered as an overflow. -/
theorem tickDuringServiceOnlyPends : Obligations.TickDuringServiceOnlyPends := by
  intro s rest hinput hbusy
  have hselect : select (.ev 0b01#2) s = .overflow := deliver_tick_busy (State.quiet_eq_false_iff.mpr hbusy)
  rw [step_of_cons hinput, hselect]; rfl

theorem State.quiet_of_noOverrun {s : State} {m : Input} {rest : List Input} (h : s.noOverrun = true)
    (hinput : s.input = m :: rest) (hm : m.isOverflow = true) : s.quiet = true := by
  simpa [State.noOverrun, hinput, hm] using h

/-- Settles O53: under the assumption a move that is an overflow finds the state quiet. -/
theorem noOverrunRunsTickWordsAndFindsNothingPending : Obligations.NoOverrunRunsTickWordsAndFindsNothingPending := by
  refine fun s rest h => ⟨fun hinput => ?_, fun hinput => ?_⟩ <;> have hquiet := State.quiet_of_noOverrun h hinput rfl
  · exact step_of_select_run hinput (deliver_run (.inr hquiet))
  · exact (State.quiet_iff.mp hquiet).imp_right State.busy_eq_false.mpr

theorem State.tick_setPend (P : Config.Params) (s : State) (b : Bool) : (s.setPend b).tick P = (s.tick P).setPend b := by
  rw [State.tick_eq, State.tick_eq]; rfl

theorem State.tick_setService (P : Config.Params) (s : State) (v : Service) :
    (s.setService v).tick P = (s.tick P).setService v := by
  rw [State.tick_eq, State.tick_eq]; rfl

theorem State.setPend_setPend (s : State) (b c : Bool) : (s.setPend b).setPend c = s.setPend c := rfl

theorem State.setService_setService (s : State) (v w : Service) : (s.setService v).setService w = s.setService w := rfl

theorem State.setPend_of_pend {s : State} {b : Bool} (hp : s.pend = b) : s.setPend b = s := by
  subst hp; rfl

theorem State.setService_of_service {s : State} {v : Service} (hs : s.service = v) : s.setService v = s := by
  subst hs; rfl

/-- With nothing pending or in progress, the writes of PEND and BUSY around a serviced TICK cancel out. -/
theorem State.serviced_tick_eq (P : Config.Params) {s : State} (hp : s.pend = false) (hs : s.service = .idle) :
    ((((s.overflow.setPend false).setService .begun).tick P).setService .stepped).setService .idle = s.tick P := by
  have hp' : (s.tick P).pend = false := (s.tick_pend P).trans hp
  have hs' : (s.tick P).service = .idle := (s.tick_service P).trans hs
  rw [State.overflow_eq, State.setPend_setPend, State.tick_setService, State.tick_setPend, State.setPend_of_pend hp',
    State.setService_setService, State.setService_setService, State.setService_of_service hs']

theorem core_run_overflow (s : State) (n : Nat) (l : List Input) :
    core.run (n + 1) (s.setInput (.overflow :: l)) = core.run n (s.overflow.setInput l) :=
  core_run_succ rfl

theorem core_run_serviceBegin {s : State} (hp : s.pend = true) (hs : s.service = .idle) (n : Nat) (l : List Input) :
    core.run (n + 1) (s.setInput (.serviceBegin :: l)) = core.run n (((s.setPend false).setService .begun).setInput l) :=
  core_run_succ (congrArg Host.Outcome.next (State.beginService_of_pend (s := s.setInput l) hp hs))

theorem core_run_serviceEnd {s : State} (hs : s.service = .stepped) (n : Nat) (l : List Input) :
    core.run (n + 1) (s.setInput (.serviceEnd :: l)) = core.run n ((s.setService .idle).setInput l) :=
  core_run_succ (congrArg Host.Outcome.next (State.endService_of_stepped (s := s.setInput l) hs))

/-- Settles O51: each of the four moves is enabled where its turn comes, and what they write around the TICK cancels out. -/
theorem servicedOverflowIsOneTick : Obligations.ServicedOverflowIsOneTick := by
  intro s rest hp hs
  change core.run 4 (s.setInput (.overflow :: .serviceBegin :: .serviceSteps :: .serviceEnd :: rest)) =
    core.run 1 (s.setInput (.ev 0b01#2 :: rest))
  rw [core_run_overflow, core_run_serviceBegin (s := s.overflow) rfl hs, core_run_serviceSteps rfl, core_run_serviceEnd rfl,
    State.serviced_tick_eq _ hp hs, core_run_succ (step_tickWord hp hs rest)]

end Sys2Proof.Machine

end

/-! ## Overflows counted: FC plus the ticks owed (R71, R74) -/

section

namespace Sys2Proof.Machine

/-- The overflows taken note of, modulo 32: those whose tick FC has counted, and those whose tick is still owed. -/
def State.fcPlusOwed (s : State) : PhaseWord := s.fc + BitVec.ofNat 5 s.owed

theorem State.fcPlusOwed_of_succ {s t : State} (hfc : t.fc = s.fc) (howed : t.owed = s.owed + 1) :
    t.fcPlusOwed = s.fcPlusOwed + 1#5 := by
  rw [State.fcPlusOwed, hfc, howed, BitVec.ofNat_add, ← BitVec.add_assoc]; rfl

theorem State.fcPlusOwed_tick (P : Config.Params) (s : State) : (s.tick P).fcPlusOwed = s.fcPlusOwed + 1#5 := by
  have howed : (s.tick P).owed = s.owed := by rw [State.owed, State.tick_pend, State.tick_service]; rfl
  rw [State.fcPlusOwed, State.tick_fc, howed, add_right_comm]; rfl

theorem State.fcPlusOwed_overflow {s : State} (hp : s.pend = false) : s.overflow.fcPlusOwed = s.fcPlusOwed + 1#5 := by
  refine State.fcPlusOwed_of_succ rfl ?_
  rw [State.owed, State.owed, hp, Bool.toNat_false, Nat.zero_add]
  exact Nat.add_comm 1 _

theorem State.overflow_of_pend {s : State} (hp : s.pend = true) : s.overflow = s := by
  rw [State.overflow_eq, State.setPend_of_pend hp]

/-- The entry hands the tick owed from PEND to the service (R70). -/
theorem State.fcPlusOwed_beginService (s : State) : s.beginService.fcPlusOwed = s.fcPlusOwed := by
  obtain ⟨hp, hs, heq⟩ | ⟨-, heq⟩ := s.beginService_cases <;> rw [heq]
  have howed : s.owed = 1 := by rw [State.owed, hp, hs]; rfl
  rw [State.fcPlusOwed, State.fcPlusOwed, howed]; rfl

/-- The steps count in FC the tick they no longer owe (R70). -/
theorem State.fcPlusOwed_stepService (P : Config.Params) (s : State) : (s.stepService P).fcPlusOwed = s.fcPlusOwed := by
  obtain ⟨hs, heq⟩ | ⟨-, heq⟩ := s.stepService_cases P <;> rw [heq]
  have hdone : { s.tick P with service := .stepped } = (s.setService .stepped).tick P := (s.tick_setService P _).symm
  have howed : s.owed = (s.setService .stepped).owed + 1 := by rw [State.owed, hs]; rfl
  rw [hdone, State.fcPlusOwed_tick, State.fcPlusOwed_of_succ (State.setService_fc s .stepped).symm howed]

theorem State.fcPlusOwed_endService (s : State) : s.endService.fcPlusOwed = s.fcPlusOwed := by
  obtain ⟨hs, heq⟩ | ⟨-, heq⟩ := s.endService_cases <;> rw [heq]
  rw [State.fcPlusOwed, State.fcPlusOwed, State.owed, State.owed, hs]; rfl

/-- A move that stands for an overflow is one, or is a TICK where nothing is pending or in progress (R72). -/
theorem select_of_isOverflow {m : Input} (hm : m.isOverflow = true) (s : State) :
    select m s = .overflow ∨ (select m s = .run .tick ∧ s.pend = false) := by
  cases m with
  | overflow => exact .inl rfl
  | ev w =>
    rw [select, eq_of_beq hm]
    cases hquiet : s.quiet
    · exact .inl (deliver_tick_busy hquiet)
    · exact .inr ⟨deliver_run (.inr hquiet), (State.quiet_iff.mp hquiet).left⟩
  | _ => cases hm

/-- A step whose move stands for an overflow is an OVERFLOW, or a TICK where PEND is clear. -/
theorem step_of_isOverflow {s t : State} {m : Input} {rest : List Input} (hinput : s.input = m :: rest)
    (hm : m.isOverflow = true) (h : step s = .next t) :
    t = (s.setInput rest).overflow ∨ (s.pend = false ∧ t = (s.setInput rest).tick Config.params) := by
  rw [step_of_cons hinput] at h
  obtain hselect | ⟨hselect, hp⟩ := select_of_isOverflow hm s <;> rw [hselect] at h <;> cases h
  · exact .inl rfl
  · exact .inr ⟨hp, rfl⟩

/-- Of the event words, only HOLD is neither a reset nor a tick (R34). -/
theorem decodeEv_of_running : ∀ {w : EventWord}, (Input.ev w).isRunning = true → (Input.ev w).isOverflow = false →
    decodeEv w = .hold := by
  decide

theorem perform_keeps_fcPlusOwed {s u t : State} {m : Input} (hrun : m.isRunning = true) (hm : m.isOverflow = false)
    (h : perform (select m s) u = .next t) : t.fcPlusOwed = u.fcPlusOwed := by
  cases m with
  | ev w =>
    rw [select, decodeEv_of_running hrun hm, deliver_run (i := .hold) (.inl nofun)] at h
    cases h; rfl
  | dread => cases h; rfl
  | serviceBegin => cases h; exact u.fcPlusOwed_beginService
  | serviceSteps => cases h; exact u.fcPlusOwed_stepService _
  | serviceEnd => cases h; exact u.fcPlusOwed_endService
  | overflow => cases hm
  | ph w | cw w | fcinc => cases hrun

/-- Settles O52: an overflow that finds PEND clear sets it or is done as a TICK, one that finds it set writes what is there,
and the moves of the service hand the tick owed from PEND to BUSY and from BUSY to FC. -/
theorem noOverflowIsServicedTwiceAndLossNeedsPend : Obligations.NoOverflowIsServicedTwiceAndLossNeedsPend := by
  refine fun s t m rest hinput hrun h => ⟨fun hm hp => ?_, fun hm hp => ?_, fun hm => ?_⟩
  · obtain rfl | ⟨-, rfl⟩ := step_of_isOverflow hinput hm h
    · exact State.fcPlusOwed_overflow (s := s.setInput rest) hp
    · exact State.fcPlusOwed_tick _ (s.setInput rest)
  · obtain rfl | ⟨hclear, -⟩ := step_of_isOverflow hinput hm h
    · exact State.overflow_of_pend (s := s.setInput rest) hp
    · cases hp.symm.trans hclear
  · rw [step_of_cons hinput] at h
    exact perform_keeps_fcPlusOwed (u := s.setInput rest) hrun hm h

end Sys2Proof.Machine

end

/-! ## The first period after reset, tick by tick (R54, R85) -/

section

namespace Sys2Proof.Machine

variable {P : Config.Params} {n k : Nat}

/-- The seed fails the goodness test under either mask (R51, R54). -/
theorem bad_zero (mask : Byte) : bad mask 0#32 = true := by
  simp [bad_iff]

theorem resampled_zero (P : Config.Params) : resampled P 0#32 = P.poly := by
  rw [resampled_eq, if_pos (bad_zero _), lStep_zero]

theorem State.toNat_fc_ticks_reset (P : Config.Params) (n : Nat) : (State.reset.ticks P n).fc.toNat = n % 32 := by
  obtain ⟨-, -, -, -, hreset⟩ := frameCounterCountsTicks
  exact hreset P n

/-- Between two multiples of 8 the LFSR is what the last multiple left (R49). -/
theorem State.ticks_reset_lfsr_of_div (h : n / 8 = k) :
    (State.reset.ticks P n).lfsr = (State.reset.ticks P (8 * k)).lfsr := by
  have hfc := State.toNat_fc_ticks_reset P (8 * k)
  rw [← Nat.div_add_mod n 8, h, State.ticks_add]
  exact State.ticks_lfsr_of_no_multiple (by omega)

/-- Each checkpoint of the first period resamples what the one before left (R47). -/
theorem State.ticks_reset_lfsr_checkpoint (hk : k < 3) :
    (State.reset.ticks P (8 * (k + 1))).lfsr = resampled P (State.reset.ticks P (8 * k)).lfsr := by
  have hfc := State.toNat_fc_ticks_reset P (8 * k)
  rw [Nat.mul_succ, State.ticks_add]
  exact State.ticks_eight_lfsr (by omega) hk

theorem State.ticks_reset_lfsr_before_first_checkpoint (hn : n / 8 = 0) : (State.reset.ticks P n).lfsr = 0#32 :=
  State.ticks_reset_lfsr_of_div hn

/-- The first checkpoint turns the seed into POLY (R54). -/
theorem State.ticks_reset_lfsr_after_first_checkpoint (hn : n / 8 = 1) :
    (State.reset.ticks P n).lfsr = P.poly := by
  rw [State.ticks_reset_lfsr_of_div hn, State.ticks_reset_lfsr_checkpoint (by decide),
    State.ticks_reset_lfsr_before_first_checkpoint rfl, resampled_zero]

theorem State.ticks_reset_lfsr_after_second_checkpoint (hn : n / 8 = 2) : (State.reset.ticks P n).lfsr = resampled P P.poly := by
  rw [State.ticks_reset_lfsr_of_div hn, State.ticks_reset_lfsr_checkpoint (by decide),
    State.ticks_reset_lfsr_after_first_checkpoint rfl]

theorem State.ticks_reset_lfsr_after_third_checkpoint (hn : n / 8 = 3) :
    (State.reset.ticks P n).lfsr = resampled P (resampled P P.poly) := by
  rw [State.ticks_reset_lfsr_of_div hn, State.ticks_reset_lfsr_checkpoint (by decide),
    State.ticks_reset_lfsr_after_second_checkpoint rfl]

theorem State.ticks_reset_31_fc (P : Config.Params) : (State.reset.ticks P 31).fc = 31#5 :=
  BitVec.eq_of_toNat_eq (State.toNat_fc_ticks_reset P 31)

/-- The second period opens with the mandatory advance (R46). -/
theorem State.ticks_reset_32_lfsr (P : Config.Params) :
    (State.reset.ticks P 32).lfsr = lStep P.poly (resampled P (resampled P P.poly)) := by
  rw [State.ticks_last, State.tick_lfsr_of_start (State.ticks_reset_31_fc P),
    State.ticks_reset_lfsr_after_third_checkpoint rfl]

theorem State.ticks_reset_duty_of_lt (hn : n < 31) : (State.reset.ticks P n).duty = 0#8 := by
  obtain ⟨hloads, -⟩ := loadsAndMandatoryAdvancesFromReset P n
  exact State.ticks_duty_of_no_load (by omega)

/-- The first load takes the value the third checkpoint left (R61). -/
theorem State.ticks_reset_31_duty (P : Config.Params) :
    (State.reset.ticks P 31).duty = dMap (lowByte (resampled P (resampled P P.poly))) := by
  have hload : (State.reset.ticks P 30).fc + 1#5 = 31#5 := by
    rw [← State.fc_ticks_succ, State.ticks_reset_31_fc]
  have hlfsr : ((State.reset.ticks P 30).tick P).lfsr = resampled P (resampled P P.poly) := by
    rw [← State.ticks_last, State.ticks_reset_lfsr_after_third_checkpoint rfl]
  rw [State.ticks_last, State.tick_duty_of_new_lfsr, if_pos hload, hlfsr]

/-- From the first load DUTY is held until the second, a period later (R66). -/
theorem State.ticks_reset_duty_of_ge (hn : 31 ≤ n) (hlt : n < 63) :
    (State.reset.ticks P n).duty = dMap (lowByte (resampled P (resampled P P.poly))) := by
  rw [← Nat.add_sub_of_le hn, State.ticks_add, dutyHoldsBetweenLoads P (n - 31) _ (State.ticks_reset_31_fc P) (by omega),
    State.ticks_reset_31_duty]

end Sys2Proof.Machine

end

section

namespace Sys2Proof.Machine

/-- Settles O37: the stretches between the checkpoints for LFSR, the one load for DUTY, the count of ticks for FC. -/
theorem firstPeriodAfterReset : Obligations.FirstPeriodAfterReset := by
  refine fun P n hn => ⟨?_, ?_, BitVec.eq_of_toNat_eq ?_⟩
  · split_ifs with h8 h16 h24 h32
    · exact State.ticks_reset_lfsr_before_first_checkpoint (by omega)
    · exact State.ticks_reset_lfsr_after_first_checkpoint (by omega)
    · exact State.ticks_reset_lfsr_after_second_checkpoint (by omega)
    · exact State.ticks_reset_lfsr_after_third_checkpoint (by omega)
    · obtain rfl : n = 32 := by omega
      exact State.ticks_reset_32_lfsr P
  · split_ifs with h31
    · exact State.ticks_reset_duty_of_lt h31
    · exact State.ticks_reset_duty_of_ge (by omega) (by omega)
  · rw [State.toNat_fc_ticks_reset, BitVec.toNat_ofNat]

end Sys2Proof.Machine

end

/-! ## After a RESET nothing depends on what was before (R86, R87) -/

section

namespace Sys2Proof.Machine

/-- The two states agree on the three registers (R9). -/
structure State.SameRegisters (s s' : State) : Prop extends s.SameGenerator s' where
  duty : s.duty = s'.duty

namespace State.SameRegisters

theorem zeroAll (s s' : State) : s.zeroAll.SameRegisters s'.zeroAll where
  lfsr := rfl
  fc := rfl
  duty := rfl

theorem tick {s s' : State} (h : s.SameRegisters s') (P : Config.Params) : (s.tick P).SameRegisters (s'.tick P) where
  toSameGenerator := h.toSameGenerator.tick P
  duty := by rw [State.tick_duty, State.tick_duty, h.fc, h.lfsr, h.duty]

theorem ticks {s s' : State} (h : s.SameRegisters s') (P : Config.Params) (n : Nat) :
    (s.ticks P n).SameRegisters (s'.ticks P n) := by
  induction n generalizing s s' with
  | zero => exact h
  | succ n ih => exact ih (h.tick P)

end State.SameRegisters

/-- Settles O46: the two resets answer the same registers, and a TICK computes the registers from the registers alone. -/
theorem everyResetStartsTheSameSequence : Obligations.EveryResetStartsTheSameSequence := by
  intro b b' s s' t t' ht ht' n
  cases ht
  cases ht'
  obtain ⟨⟨hlfsr, hfc⟩, hduty⟩ := (State.SameRegisters.zeroAll s s').ticks Config.params n
  exact ⟨hlfsr, hfc, hduty⟩

theorem core_run_resetWord {w : EventWord} (hw : w.getLsbD 1 = true) (s : State) (n : Nat) (l : List Input) :
    core.run (n + 1) (s.setInput (.ev w :: l)) = core.run n (s.zeroAll.setInput l) := by
  have hselect : select (.ev w) (s.setInput (.ev w :: l)) = .run (.reset (w.extractLsb' 0 1)) := by
    rw [select, decodeEv_of_rst hw]
    exact deliver_run (.inl nofun)
  exact core_run_succ (step_of_select_run (State.setInput_input s _) hselect)

theorem core_run_serviceSteps_of_not_begun {s : State} (hs : s.service ≠ .begun) (n : Nat) (l : List Input) :
    core.run (n + 1) (s.setInput (.serviceSteps :: l)) = core.run n (s.setInput l) :=
  core_run_succ (congrArg Host.Outcome.next (State.stepService_of_not_begun _ (s := s.setInput l) hs))

theorem core_run_serviceEnd_of_not_stepped {s : State} (hs : s.service ≠ .stepped) (n : Nat) (l : List Input) :
    core.run (n + 1) (s.setInput (.serviceEnd :: l)) = core.run n (s.setInput l) :=
  core_run_succ (congrArg Host.Outcome.next (State.endService_of_not_stepped (s := s.setInput l) hs))

/-- Settles O54: RESET ends the service, so neither its steps nor its return is enabled when its turn comes. -/
theorem resetAbandonsTheTickInProgress : Obligations.ResetAbandonsTheTickInProgress := by
  intro s w rest hw
  change core.run 3 (s.setInput (.ev w :: .serviceSteps :: .serviceEnd :: rest)) = .next (s.zeroAll.setInput rest)
  rw [core_run_resetWord hw, core_run_serviceSteps_of_not_begun (by simp), core_run_serviceEnd_of_not_stepped (by simp),
    core_run_zero]

end Sys2Proof.Machine

end
